-- ==== Sys2Proof/Word.lean ====
section
/-! DEFINITION. The word and byte types of the IXN-6348 and the sparse table type its indexed state is held in. -/

namespace Sys2Proof

/-- A 32-bit register word (R5). -/
abbrev Word := BitVec 32

/-- A byte of the configuration and coefficient store or of a record image (R307, R313). -/
abbrev Byte := BitVec 8

/-- Indexed state: key and value pairs, keys strictly rising, no entry equal to the default of
the table it is. An index that is not listed holds the default. -/
abbrev Tbl (α : Type) := List (Nat × α)

/-- An exact real number of the load models, the thermal laws and Vertex. The spec gives those laws
as real formulas (R150 to R158, R233 to R249, R350 to R357); where it states a rounding, the model
applies it where the spec does. -/
abbrev Real0 := Rat

end Sys2Proof
end

