-- ==== Sys2Proof/Syntax.lean ====
section
/-! DEFINITION. The commands of the block: one constructor of Instr per row of the table of operations
and events, with what its sender supplies as operands. -/

namespace Sys2Proof

/-- Who makes a register access: the host over PCIe, the safety microcontroller over QSPI, or the
NVM load (R397, R400, R405). -/
inductive Req where
  | pcie | qspi | load
  deriving DecidableEq, Repr

/-- Where a register write goes: a BAR0 page and offset, or a BAR2 offset (R398). -/
inductive Target where
  | bar0 (page off : Nat)
  | bar2 (off : Nat)
  deriving DecidableEq, Repr

/-- The IEEE 1344 control functions of an IRIG-B frame (R47): leap second pending and sign, the UTC
offset in half hours, the 4-bit time quality and whether the parity holds. -/
structure IrigCf where
  lsp : Bool
  ls : Bool
  off2 : Int
  tq : Nat
  parOk : Bool
  deriving DecidableEq, Repr

/-- A decoded IRIG-B frame (R46): the captured on-time edge in edge-time ticks, the BCD time of day and
day of year, the year where the format carries it, the straight binary seconds where present and the
control functions where the format carries them. -/
structure IrigFrame where
  edge : Nat
  sec : Nat
  min : Nat
  hour : Nat
  day : Nat
  year : Option Nat
  sbs : Option Nat
  cf : Option IrigCf
  deriving DecidableEq, Repr

/-- The result of a transfer from host memory, or from capture memory (R217, R280, R317, R318), with the single-bit ECC
errors corrected in it (R320). -/
inductive Xfer where
  | ok (words : List Nat) (corr : Nat := 0)
  | pcieErr (bytes : Nat) (corr : Nat := 0)
  | eccErr (bytes : Nat) (corr : Nat := 0)
  deriving DecidableEq, Repr

/-- What an NVM image holds (R2, R10, R200, R318, R371): register entries by BAR0 address, per-context
entries (K index below 64, or the offset of MAN, SPL_SRC, SLEW or ACCEL in the LATTICE window) by context, microcode
words, store bytes, the subsystem identifiers, its CRC-32 and its length. -/
structure Image where
  regs : List (Nat × Word)
  coef : List (Nat × Nat × Word)
  lcode : List (Nat × Word)
  store : List (Nat × Byte)
  subsys : Nat
  crc : Nat
  len : Nat
  deriving DecidableEq, Repr

/-- How the programming of an NVM image ended (R415). -/
inductive NvmEnd where
  | done (img : Image)
  | crcBad
  | verifyBad
  | pcieErr (bytes : Nat)
  | gateClosed
  deriving DecidableEq, Repr

/-- What the housekeeping round converts for itself (Table 14.1): die sensors and external NTC inputs in
0.125 °C, the six supplies in mV, the mean VCORE current in 10 mA, the two references' difference in
0.01 %, the sprint duty in 1/1,024, the peak in-flight counts (R194, R348, R358), the least slack of
each context in cycles, and the PLLs whose relock has not completed in its 40 µs, by bit of PWR:CLK_STAT (R365). -/
structure HkData where
  die : List Int
  ntc : List Int
  sup : List Nat
  icore : Nat
  refDiff : Nat
  duty : Nat
  peakAll : Nat
  peakC0 : Nat
  slack : List (Nat × Nat)
  relock : Nat := 0
  deriving DecidableEq, Repr

/-- A unit and part in which the two engines of a Chord domain disagree at a commit (R144): the unit
number of R92, and whether the disagreement is in a retreat transition. -/
structure Mismatch where
  unit : Nat
  retreat : Bool
  deriving DecidableEq, Repr

/-- The mean period of the external modulator clock (R268): the ticks of 62.5 ps that its last n periods span, the last
65,536, or all since acquisition where there are fewer. -/
structure EdgeMean where
  span : Nat := 0
  n : Nat := 0
  deriving DecidableEq, Repr

/-- How wide a read of BAR0 is (R398): the addressed bytes of one aligned register, from a byte of it on; one register; or
two registers, the lower address first. -/
inductive Access where
  | bytes (first n : Nat)
  | word
  | pair
  deriving DecidableEq, Repr

/-- What a read of BAR0 addresses on its page: a register's offset, and how wide the read is there (R398). -/
structure ReadAt where
  off : Nat
  acc : Access := .word
  deriving DecidableEq, Repr

/-- An edge at a pin: its polarity and its instant in ticks of 62.5 ps (R319). -/
structure PinEdge where
  rising : Bool
  ticks : Nat
  deriving DecidableEq, Repr

/-- A channel k at its clock c0, with the 1,023 bits its delay line then holds, newest first (R272, R282). -/
structure ChannelStart where
  k : Nat
  c : Nat
  line : List Bool
  deriving DecidableEq, Repr

/-- What a received subframe carries beside V and P: its word, its user bit and its channel-status bit (R322). -/
structure RxSub where
  word : Nat
  u : Bool := false
  c : Bool := false
  deriving DecidableEq, Repr

/-- The commands: one constructor per row of spec/opcode_table.json. A link or unit is numbered as R92
numbers it: 0 to 47 the cells, 48 to 51 the legs. -/
inductive Instr where
  -- registers and pages
  | registerWrite (rq : Req) (t : Target) (w : Word) (whole : Bool)
  | lowerHalfRead (rq : Req) (page : Nat) (at_ : ReadAt)
  | upperHalfRead (rq : Req) (page : Nat) (at_ : ReadAt)
  | outRead (rq : Req) (k : Nat)
  | cdataRead (rq : Req)
  | lcodeDataRead (rq : Req)
  | rdDataRead (rq : Req)
  | pageKey (rq : Req) (page : Nat) (w : Word)
  | violClr (rq : Req) (w : Word)
  | evtMaskWrite (rq : Req) (page : Nat) (w : Word)
  | evtPendClear (rq : Req) (page : Nat) (w : Word)
  | qspiFrame (opcode addr : Nat) (words : List Word) (nread : Nat) (cut : Bool)
  -- commands and completions
  | submit (port : Nat)
  | completion
  | cqHead (rq : Req) (w : Word)
  -- configuration writes with a row of their own
  | unconf (rq : Req) (s : Nat)
  | realign (rq : Req) (link : Nat) (w : Word)
  | trimWrite (rq : Req) (link p : Nat) (w : Word)
  | deadCfgWrite (rq : Req) (x : Nat) (w : Word)
  | ctxEnable (rq : Req) (c : Nat) (w : Word)
  | ctxDisable (rq : Req) (c : Nat) (w : Word)
  | reqOpen (rq : Req) (c : Nat) (en : Bool)
  | reqClose (rq : Req) (c : Nat) (en : Bool)
  | reqIdle (rq : Req) (c : Nat) (en : Bool)
  | cdataWrite (rq : Req) (w : Word)
  | lcodeDataWrite (rq : Req) (w : Word)
  | tgtWrite (rq : Req) (w : Word)
  | periodWrite (rq : Req) (w : Word)
  | loopLatWrite (rq : Req) (w : Word)
  | srcChange (rq : Req) (w : Word)
  -- Hull and stage requests
  | set (rq : Req) (w : Word)
  | clr (rq : Req) (w : Word)
  | force (rq : Req)
  | fbrk (rq : Req)
  | kick (rq : Req) (w : Word)
  | consent (rq : Req) (w : Word)
  | causeClear (rq : Req) (w : Word)
  | rstCtrl (rq : Req) (w : Word)
  | warmReset
  | pwrReq (rq : Req) (w : Word)
  | withdraw (rq : Req) (s : Nat) (w : Word)
  | freeze (rq : Req) (w : Word)
  | channelStart (rq : Req) (k : Nat)
  | channelStop (rq : Req) (k : Nat)
  | waveRun (rq : Req)
  | captureEn (rq : Req)
  | hostTrigger (rq : Req)
  | rel (rq : Req) (w : Word)
  | pop (rq : Req)
  | arrPop (rq : Req)
  | resync (rq : Req) (n : Nat)
  | rxEnSet (rq : Req) (n : Nat)
  | rxEnClear (rq : Req) (n : Nat)
  | ageFullWrite (rq : Req) (k : Nat) (w : Word)
  -- commands executing and ending
  | cmdArm
  | armed (n : Nat)
  | cmdDisarm
  | cmdTimeSet
  | cmdCalibrate
  | calibrationEnd (target : Nat) (result : List Int)
  | calibrateTimeout
  | cmdPrecharge
  | prechargeTimeout (slot : Nat)
  | cmdOffstateRun
  | cmdPilotRun
  | cmdCtxLoad
  | ctxLoadReadEnd (c : Nat) (x : Xfer)
  | cmdBankLoad
  | bankLoadEnd (b : Nat) (x : Xfer)
  | cmdRespSwap
  | cmdCaptureRead
  | captureReadEnd (slot : Nat) (x : Xfer)
  | cmdStoreWrite
  | storeWriteEnd (x : Xfer)
  | cmdNvmWrite
  | writeEnd (r : NvmEnd)
  -- time base
  | ppsEdge (edge : Nat)
  | irigFrame (f : IrigFrame)
  | holdover
  | timeSetTimeout
  | tqChg
  | leapSecondStart
  | leapDone
  | leapOccurredEnd
  | refclkLoss
  | refclkReturn
  -- Facet links and nodes
  | downstreamSubframe (k n j : Nat)
  | blockBoundary (n : Nat)
  | upstreamSubframe (k edge pre : Nat) (word : Nat) (v u c p : Bool)
  | linkLoss (k : Nat)
  | sample (k qty : Nat) (si : Bool) (value : Int) (m : Nat)
  | echo (k tag turn edge : Nat)
  | upstreamBlockStatus (k edge : Nat)
  | helloId (k ty rev : Nat)
  | serialLo (k v : Nat)
  | serialHi (k v : Nat)
  | ack (k ty seq : Nat)
  | swdlyOn (k pos v : Nat)
  | swdlyOff (k pos v : Nat)
  | supplyV (k pos v : Nat)
  | testResult (k pos : Nat) (v : Int)
  | injectionTimeout (k : Nat)
  | chopTime (k v : Nat)
  | bypState (k v : Nat)
  | desat (k pos age edge : Nat)
  | interlock (k pos age edge : Nat)
  | interlockExpiry (k : Nat)
  | uvlo (k pos age edge : Nat)
  | supplyLow (k pos age edge : Nat)
  | dcOv (k pos age edge : Nat)
  | chop (k pos age edge : Nat)
  | nodeOt (k pos age edge : Nat)
  | bypDone (k pos age edge : Nat)
  | bypFail (k pos age edge : Nat)
  | preDone (k pos age edge : Nat)
  | preFail (k pos age edge : Nat)
  | cmdRej (k pos age edge : Nat)
  | testDone (k pos age edge : Nat)
  | unlistedCode (k code pos age edge : Nat)
  -- control, modulation and scheduling
  | inputLatch (c e i : Nat)
  | instanceEnd (c e : Nat)
  | commit (m : Nat) (mis : List Mismatch)
  | cellStart (u : Nat)
  | restEntry (u : Nat)
  | retreatReload (u : Nat)
  | vertexLatch (n : Nat)
  | vertexPublish (n : Nat)
  -- models and diagnostics
  | ageingSave
  | saved (ok : Bool)
  | pilotWindowEnd
  | pilotRunEnd
  -- measurement
  | clockAcquired (pbar : EdgeMean)
  | clkLoss
  | clkRange
  | channelSettleStart (start : ChannelStart)
  | cicOutput (k c : Nat) (bits : List Bool)
  | firOutput (k c ts : Nat) (pbar : EdgeMean)
  | outputPublish (k : Nat)
  | phasorFrame (sec k : Nat)
  | waveOutput (c ts : Nat) (pbar : EdgeMean) (bits : List Nat)
  | extTrigger (edge : PinEdge)
  | triggerPulseEnd
  | recordClose (ring : Nat)
  -- streams
  | rxFrame (n edge : Nat) (w1 w2 : RxSub) (v1 v2 p1 p2 : Bool)
  | rxBlock (n hi lo fine : Nat)
  | rxLoss (n : Nat)
  | muteFadeEnd (n sub : Nat)
  | txBlock (n edge : Nat)
  -- power, thermal, stages and supervision
  | housekeepingRound (n : Nat) (h : HkData)
  | domainOn (pd : Nat)
  | domainOff (pd : Nat)
  | powerOnReset
  | powerOnResetRelease (refclk : Bool)
  | hullArmed
  | safeEntry (ok : Bool)
  | nvmLoadEnd
  | selfTestEnd (fail : Nat)
  | thermalShutdown
  | safeN
  | wdog (violations : Nat)
  | hostwd
  | consentExpiry
  | pcieReset
  | linkDown
  | linkUp (rate width : Nat)
  | safeNRelease
  | tsdLiveClear
  | uErr (k : Nat) (crcBad : Bool)
  | configurationWrite (msixEn msixMask busMaster : Bool)
  deriving DecidableEq, Repr

end Sys2Proof
end

