-- ==== Sys2Proof/Config.lean ====
section
/-! DEFINITION. What the spec leaves open: the free values, the roundings it does not state, the real
functions and the estimators it names without giving their arithmetic, and what is fixed at manufacture. Every
constant here is opaque: nothing can evaluate it, so no claim rests on a value of it. -/

namespace Sys2Proof.Config

/-- The n-th fresh free bit: an open choice of the spec for which Dev.free supplies n. DESIGN CHOICE [5]. -/
opaque freeBool : Nat → Bool
/-- The n-th fresh free natural number. DESIGN CHOICE [5]. -/
opaque freeNat : Nat → Nat
/-- The n-th fresh free integer. DESIGN CHOICE [5]. -/
opaque freeInt : Nat → Int
/-- The n-th fresh free real. DESIGN CHOICE [5]. -/
opaque freeRat : Nat → Rat

/-- Whether a rounding that the spec does not state, at a site of the model, goes up. DESIGN CHOICE [7]. -/
opaque roundUp : Nat → Rat → Bool

/-- An unstated rounding at a site: one of the two integers around the exact value. -/
def roundAt (site : Nat) (x : Rat) : Int := if roundUp site x then x.ceil else x.floor

/-- A rounding to the nearest integer whose halves the spec does not place: either neighbour of a half. -/
def nearAt (site : Nat) (x : Rat) : Int := if x - x.floor = 1 / 2 then roundAt site x else (x + 1 / 2).floor

/-- What a field shows of a value that it cannot hold. DESIGN CHOICE [80]. -/
opaque misfit : Nat → Nat → Nat
/-- A field of n bits that shows a value. -/
def field (n x : Nat) : Nat := if x < 2 ^ n then x else misfit n x % 2 ^ n

/-- A square root in whole units without a stated rounding: one of the two integers around it. -/
def sqrtAt (site : Nat) (x : Rat) : Int :=
  let n := Nat.sqrt x.floor.toNat
  if ((n * n : Nat) : Rat) = x then n else if roundUp site x then n + 1 else n

/-- Numerator and denominator, each less 1, of a gain of Locus's servo at a time constant: proportional or integral. -/
opaque servoNum : Bool → Nat → Nat
opaque servoDen : Bool → Nat → Nat
/-- A gain of the servo at time constant TC: positive, and not given by R43. DESIGN CHOICE [8]. -/
def servoGain (proportional : Bool) (tc : Nat) : Rat :=
  ((servoNum proportional tc + 1 : Nat) : Rat) / ((servoDen proportional tc + 1 : Nat) : Rat)

/-- Which of two group members equally near a reading the cross-check takes (R350): the spec does not say.
DESIGN CHOICE [66]. -/
opaque nearTie : Int → Int → Bool

/-- The per-die serial number less 1, taken modulo 2^64 − 1 (R4). -/
opaque serialBase : Nat
/-- DEV:UNIQUE, fixed at manufacture and never zero (R4). DESIGN CHOICE [12]. -/
def serial : Nat := serialBase % (2 ^ 64 - 1) + 1

/-- The value an unstated wavelet, square root, sine, cosine, exponential or power takes. DESIGN CHOICE [9]. -/
opaque sqrtR : Rat → Rat
opaque sinR : Rat → Rat
opaque cosR : Rat → Rat
opaque expR : Rat → Rat
opaque powR : Rat → Rat → Rat
/-- The circle constant as the device's arithmetic holds it. DESIGN CHOICE [9]. -/
opaque piR : Rat

/-- The coefficients of a Prism ROM response, and the certified revision of a response (R279, Table 11.13).
DESIGN CHOICE [10]. -/
opaque romTable : Nat → List Int
opaque romRev : Nat → Nat

/-- The phasor estimator of R295 and R296: real and imaginary raw value of a slot from the window of outputs.
DESIGN CHOICE [11]. -/
opaque phasor : Nat → Nat → List (Nat × Int) → Int × Int
/-- The frequency and ROCOF estimators of R298 (raw values). DESIGN CHOICE [11]. -/
opaque freq : Nat → List (Nat × Int) → Int
opaque rocof : Nat → List (Nat × Int) → Int

end Sys2Proof.Config
end

