-- ==== Sys2Proof/Machine/State.lean ====
section
/-! DEFINITION. The state of the IXN-6348 as plain data, holding every piece of state the spec names, the
machine right after reset, and the reasons a step can stop. Registers that software writes are words of
one table keyed by BAR0 address (State.dev.regs); every status register reads from the fields below. -/

namespace Sys2Proof.Machine

/-- The stages of Table 15.1 (R368). -/
inductive Stage where
  | reset | safe | aware | ready | run | cooldown | halt
  deriving DecidableEq, Repr

/-- The holds of R375. -/
inductive Hold where
  | none | off | zero | bypass
  deriving DecidableEq, Repr

/-- The states of a Facet link (Table 3.12). -/
inductive LinkState where
  | down | hello | align | standby | active | lost | mismatch
  deriving DecidableEq, Repr

/-- The states of Locus (Table 2.9). -/
inductive LocusState where
  | free | acquire | locked | holdover | fault
  deriving DecidableEq, Repr

/-- The states of a control context (Table 8.1). -/
inductive CtxState where
  | idle | opened | closing | closed | fault
  deriving DecidableEq, Repr

/-- The modes of a Chord cell or leg (Table 5.12). -/
inductive ChMode where
  | idle | starting | modulating | resting | held | retreat
  deriving DecidableEq, Repr

/-- The roles of a cell in Vertex (R147, Table 6.6). -/
inductive Role where
  | absent | sharing | resting | starting | leaving | out
  deriving DecidableEq, Repr

/-- The health states of a cell (Table 6.2). -/
inductive Health where
  | good | watch | leaving
  deriving DecidableEq, Repr

/-- The states of a Prism channel (R282). A start that is accepted and whose c0 has not come is starting where the
channel reads STOPPED until c0, and restarting where it reads WAIT_CLK. -/
inductive ChanState where
  | stopped | settling | running | waitClk | starting | restarting
  deriving DecidableEq, Repr

/-- The states of a stream receiver (R325). -/
inductive RxState where
  | off | search | locking | locked
  deriving DecidableEq, Repr

/-- SYSCNT and its fractional accumulator (R31, R32). Only a REFCLK edge and the release of a power-on
reset write it. -/
structure Clock where
  /-- SYSCNT; 64; 02 R31; 0 (R31) -/
  cnt : BitVec 64 := 0
  /-- fractional accumulator of SYSCNT; 32; 02 R32; DESIGN CHOICE 0 [1] -/
  frac : BitVec 32 := 0
  deriving DecidableEq, Repr

/-- A completion entry (Table 16.6). -/
structure CqEntry where
  handle : Nat := 0
  status : Nat := 0
  op : Nat := 0
  result : Nat := 0
  ts : Nat := 0
  deriving DecidableEq, Repr

/-- A submission slot in use (R409): its handle, its descriptor's opcode, NOTIFY flag and argument
bytes, whether its execution has begun, what a check that is due at submission found, its end. -/
structure Slot where
  handle : Nat := 0
  op : Nat := 0
  notify : Bool := false
  args : List Nat := []
  begun : Bool := false
  early : Nat := 0
  ended : Option (Nat × Nat × Nat) := none
  deriving DecidableEq, Repr

/-- The submission and completion state (R408 to R412). Only SUBMIT, COMPLETION, CQ_HEAD and the reset
of PD1 write it. -/
structure Ring where
  /-- CMD:SEQ; 11; 16 R409; 1 (Table 17.7) -/
  seq : Nat := 1
  /-- CQ_HEAD.IDX; 6; 16 R412; 0 (Table 16.8) -/
  head : Nat := 0
  /-- CQ_TAIL.IDX; 6; 16 R412; 0 (Table 16.8) -/
  tail : Nat := 0
  /-- unread completion entries; 6; 16 R412; 0 (no entry written) -/
  unread : Nat := 0
  /-- CQ_TAIL.PHASE; 1; 16 R412; 1 (Table 16.8) -/
  phase : Bool := true
  /-- CQE[e], e = 0 to 63, completion entries; 128 each; 16 R412; 0 (Table 16.8) -/
  cqe : Tbl CqEntry := []
  deriving DecidableEq, Repr

/-- What a page holds beside its own registers (Table 16.1). -/
structure Page where
  /-- PAGE_CTRL of each page; 32; 16 R402; 0 (Table 16.1) -/
  ctrl : Word := 0
  /-- EVT_RAW of each page; 32; 16 R416; 0 (Table 16.1) -/
  raw : Nat := 0
  /-- EVT_MASK of each page; 32; 16 R416; 0 (Table 16.1) -/
  mask : Nat := 0
  /-- PAGE_KEY unlocked flag of each page; 1; 16 R403; 0 (Table 16.1) -/
  unlocked : Bool := false
  /-- PAGE_STATUS.READY of each page; 1; 15 R370; 0 (no page is ready before SAFE) -/
  ready : Bool := false
  deriving DecidableEq, Repr

/-- Ignored writes (R405). -/
structure Viol where
  /-- DEV:VIOL_COUNT; 32; 16 R405; 0 (Table 17.2) -/
  count : Nat := 0
  /-- DEV:VIOL_LAST; 32; 16 Table 16.2; 0 (Table 17.2) -/
  last : Nat := 0
  deriving DecidableEq, Repr

/-- The host interface (chapter 16). -/
structure Bus where
  /-- upper-half latches per requester, by requester and address; 32 each; 00 R7; none (no read made) -/
  latch : Tbl Nat := []
  /-- words the last register read or frame answered, per requester; 32 each; 16 R398, R400; none -/
  respPcie : List Nat := []
  /-- words the last QSPI frame answered; 32 each; 16 R400; none -/
  respQspi : List Nat := []
  /-- DESC[p] words, p = 0 to 7, by BAR2 offset; 32 each; 16 R407; 0 (Table 16.8) -/
  desc : Tbl Word := []
  /-- SLOT_MAP and SLOT_INFO[n], n = 0 to 31; 32 slots; 16 R409; free (Table 17.7 live) -/
  slots : Tbl (Option Slot) := []
  /-- order in which accepted commands wait to execute; slot numbers; 16 R410; none -/
  waiting : List Nat := []
  /-- order in which ended commands wait for their completion entry; slot numbers; 16 R412; none -/
  ended : List Nat := []
  /-- CMD:REFUSED; 16; 16 R408; 0 (Table 17.7) -/
  refused : Nat := 0
  /-- HOST:PCIE_RST; 16; 16 Table 16.14; 0 (Table 17.7) -/
  pcieRst : Nat := 0
  /-- HOST:QSPI_ERR; 16; 16 R400; 0 (Table 17.7) -/
  qspiErr : Nat := 0
  /-- HOST:LINK_STAT.UP; 1; 16 Table 16.14; 0 (the PCIe link has not trained) -/
  linkUp : Bool := false
  /-- HOST:LINK_STAT width and rate; 8; 16 Table 16.14; 0 (link down) -/
  linkWr : Nat := 0
  /-- bus mastering enabled; 1; 16 Table 16.14; PRESUMED 0 (the PCIe default) [2] -/
  busMaster : Bool := false
  /-- MSI-X Enable; 1; 16 R417; PRESUMED 0 (the PCIe default) [2] -/
  msixEn : Bool := false
  /-- MSI-X function mask; 1; 16 R417; PRESUMED 0 (the PCIe default) [2] -/
  msixMask : Bool := false
  /-- MSIX[v] table words, v = 0 to 31, by BAR2 offset; 128 each; 16 Table 16.8; PRESUMED address and data 0, vector control 1 (the PCIe default) [2] -/
  msix : Tbl Word := []
  /-- PBA pending bits; 32; 16 R417; 0 (Table 16.8) -/
  pba : Nat := 0
  /-- MSI-X vectors sent, newest first; list; 16 R417; none (model's record of what left the device) [3] -/
  sent : List Nat := []
  /-- subsystem identifiers of the configuration header; 32; 00 R2; 0 (R2) -/
  subsys : Nat := 0
  /-- blocks of bytes written to host memory by the device, newest first; list; 12 R317, 13 R339; none (model's record) [3] -/
  dma : List (Nat × List Byte) := []
  deriving DecidableEq, Repr

/-- The stages, the self-test and the resets (chapter 15). -/
structure Boot where
  /-- DEV:STAGE.STAGE; 3; 15 R368; RESET (Table 15.4) -/
  stage : Stage := .reset
  /-- DEV:STAGE.LAST; 3; 15 Table 15.13; DESIGN CHOICE RESET [1] -/
  last : Stage := .reset
  /-- DEV:STAGE.WHY; 8; 15 Table 15.13; 0 power-on -/
  why : Nat := 0
  /-- a power-on reset holds; 1; 18 R435; 0: the state after reset is the release [1] -/
  por : Bool := false
  /-- BOOT_STAT.NVM_DEFAULT; 1; 15 R371; DESIGN CHOICE 0 [1] -/
  nvmDefault : Bool := false
  /-- BOOT_STAT.NVM_SLOT; 1; 15 R371; DESIGN CHOICE 0 [1] -/
  nvmSlot : Nat := 0
  /-- BOOT_STAT.UNTESTED; 10; 15 R373; 0 (no domain above PD0 is on) -/
  untested : Nat := 0
  /-- BOOT_STAT.ST_FAIL; 8; 15 R372; 0 (no item has failed) -/
  stFail : Nat := 0
  /-- the NVM load of this AWARE has completed; 1; 15 R370; 0 -/
  loaded : Bool := false
  /-- the NVM load of PD0 and PD1 pages has been made since power-on; 1; 17 R425; 0 -/
  firstLoad : Bool := false
  /-- domains whose on time began as a result of the NVM PWR:REQ of this AWARE; 10; 15 R373; 0 -/
  nvmOn : Nat := 0
  /-- PD7, requested by the NVM load, arrived after the self-test had ended: its item is due; 1; 15 R373; 0 -/
  memDue : Bool := false
  /-- a warm reset has been requested and waits for the round boundary; 1; 15 R374; 0 -/
  warm : Bool := false
  /-- Hull is armed (0.2 ms after power-on); 1; 15 R380; 0 -/
  armed : Bool := false
  /-- consecutive rounds with VDDQ and VANA within SUP_LIM; 6; 15 R369; 0 -/
  supOk : Nat := 0
  /-- a CMD_ARM is accepted: the first block index that may enter RUN and its slot; 15 R392; none -/
  arming : Option (Nat × Nat) := none
  /-- a CMD_DISARM runs: its slot; 5; 15 R393; none -/
  disarming : Option Nat := none
  /-- a CMD_CALIBRATE runs: its target and its slot; 16 R414; none -/
  calib : Option (Nat × Nat) := none
  /-- calibrations in force, targets 1 to 3; result codes; 16 R414, 18 R445; none (the AWARE calibrations have not run) -/
  calRes : Tbl (List Int) := []
  deriving DecidableEq, Repr

/-- The power domains (R362 to R365). -/
structure Pwr where
  /-- PWR:STAT.ON; 10; 14 R362; 0x001 (Table 15.1: PD0 in RESET) -/
  on : Nat := 1
  /-- PWR:STAT transition bits; 10; 14 R362; 0 -/
  trans : Nat := 0
  /-- transitions under way, turning on (1) or off (0) by domain; 10; 14 R362; 0 -/
  rising : Nat := 0
  /-- PD8 waits for its receivers to fade before turning off; 1; 13 R335, 14 R359; 0 -/
  fadeOff : Bool := false
  /-- PLLs whose relock is late, by bit of CLK_STAT; 4; 14 R365; DESIGN CHOICE 0 [1] -/
  late : Nat := 0
  deriving DecidableEq, Repr

/-- The Hull supervisor (chapter 15). -/
structure Hull where
  /-- HULL:CAUSE; 12; 15 Table 15.10; 0 (Table 17.4) -/
  cause : Nat := 0
  /-- HULL:CAUSE_FIRST; 32; 15 R378; 0 (Table 17.4) -/
  first : Nat := 0
  /-- HULL:CAUSE_TS_LO and CAUSE_TS_HI; 64; 15 R378; 0 (Table 17.4) -/
  ts : Nat := 0
  /-- HULL:HOLD[j] and HOLD_LEG, units 0 to 51; 2 each; 15 R375; none (Table 15.4 power-on: cleared) -/
  hold : Tbl Hold := []
  /-- disarm state of R393 in force; 2; 15 R393; none -/
  disarm : Hold := .none
  /-- device trip in force: every unit is commanded OFF without a hold; 1; 15 R379; DESIGN CHOICE 0 [1] -/
  trip : Bool := false
  /-- domains whose engines stay stopped after a domain fault (bit 3, bit 4); 5; 05 Table 5.3; 0 -/
  engStop : Nat := 0
  /-- SAFE_N asserted after its filter; 1; 15 R381; 0: the pin is high [1] -/
  safeN : Bool := false
  /-- HULL:STAT.TSD_LIVE; 1; 15 Table 15.9; 0: no site at or above THR [1] -/
  tsdLive : Bool := false
  /-- HULL:TSD.COUNT; 16; 15 R387; 0 (since power-on) -/
  tsdCount : Nat := 0
  /-- HULL:TSD.THR; 8; 15 R387; 0x87 (Table 17.4) -/
  tsdThr : Nat := 135
  /-- a shutdown was decided in RESET; 1; 15 R369; 0 -/
  tsdReset : Bool := false
  /-- HULL:WDOG violations; 16; 15 R384; 0 (Table 17.4) -/
  wdog : Nat := 0
  /-- CONSENT_OK until this SYSCNT; 64; 15 R386; none -/
  consent : Option Nat := none
  /-- SYSCNT of the last KICK or of the entry to RUN; 64; 15 R385; 0 -/
  kick : Nat := 0
  /-- HULL:COOL rounds; 14; 15 R389; 0 -/
  cool : Nat := 0
  /-- HULL:COOL largest raw die reading, 0.125 °C; 16; 15 Table 15.7; DESIGN CHOICE 0 [1] -/
  coolMax : Int := 0
  /-- units placed in BYPASS by a withdrawal and not yet reported; 48; 06 R167; 0 -/
  withdrawn : Tbl Bool := []
  /-- the block in which a fault last decided a hold of each unit, and that hold; 2 each; 15 R394; none -/
  fresh : Tbl (Nat × Hold) := []
  deriving DecidableEq, Repr

/-- The Locus time base (chapter 02). -/
structure Locus where
  /-- LOCUS:STAT.STATE; 3; 02 Table 2.9; FREE (Table 2.4) -/
  st : LocusState := .free
  /-- LOCUS:OFFSET; 64; 02 R35; 0 (Table 17.5) -/
  offset : Nat := 0
  /-- LOCUS:TRIM_APPLIED; 32 signed; 02 R32; 0 (Table 17.5) -/
  trim : Int := 0
  /-- LOCUS:TRIM_TARGET; 32 signed; 02 R34; 0 (Table 17.5) -/
  target : Int := 0
  /-- acquisition row of Table 2.2: edges accepted so far; 2; 02 R42; 0 -/
  row : Nat := 0
  /-- edge time of the last accepted edge, 1/16 ns; 68; 02 Table 2.7 (PPS_LO, PPS_HI, PPS_INFO.fine); 0 (Table 17.5) -/
  lastEdge : Nat := 0
  /-- an edge has ever been accepted (PPS_SEEN); 1; 02 Table 2.9; 0 -/
  haveEdge : Bool := false
  /-- PPS_INFO phase error of that edge, ns; 24 signed; 02 Table 2.7; 0 (Table 17.5) -/
  phase : Int := 0
  /-- phase errors of the consecutive edges rejected for exceeding STEP_THRESH, newest first; 02 R44; none -/
  rej : List Int := []
  /-- consecutive accepted edges in HOLDOVER; 2; 02 R45; 0 -/
  recov : Nat := 0
  /-- LOCUS:PPS_REJ; 32; 02 R44; 0 (Table 17.5) -/
  ppsRej : Nat := 0
  /-- LOCUS:IRIG_ERR; 32; 02 R47; 0 (Table 17.5) -/
  irigErr : Nat := 0
  /-- STAT.SECS_VALID; 1; 02 R48; 0 -/
  secsValid : Bool := false
  /-- the last valid IRIG-B frame: its TAI seconds and on-time edge; 02 R48; none -/
  irigPrev : Option (Nat × Nat) := none
  /-- whole seconds by which the last frame disagreed with TAI, not 0; 02 R48; none -/
  disagree : Option Int := none
  /-- SYSCNT of the last valid IRIG-B frame; 64; 02 Table 2.9 IRIG_SYNC; none -/
  irigTs : Option Nat := none
  /-- IRIG time quality of the last valid frame; 4; 02 R53; 0xF -/
  srcTq : Nat := 15
  /-- STAT.TQ; 4; 02 R53; 0xF (Table 2.4) -/
  tq : Nat := 15
  /-- error bound E0 at entry and its start, ns; 02 R52; none (no time-set, no holdover) -/
  e0 : Option (Nat × Nat) := none
  /-- source code at entry to HOLDOVER, TQ is never better; 4; 02 R53; 0 -/
  entryTq : Nat := 0
  /-- SYSCNT at which Locus last left LOCKED; 64; 02 R53 UNLOCK; none -/
  leftLock : Option Nat := none
  /-- SYSCNT at which Locus entered LOCKED; 64; 02 R52; 0 -/
  lockTs : Nat := 0
  /-- applied trim over LOCKED: instants and values, newest first; 02 R52; none -/
  hist : List (Nat × Int) := []
  /-- servo correction in force, 2^-32 ns per edge; 32 signed; 02 R43, R51; 0 -/
  slew : Int := 0
  /-- trim at the entry to LOCKED, to which the correction is added; 32 signed; 02 R43; 0 -/
  base : Int := 0
  /-- sum of the phase errors that the servo has taken in LOCKED, ns; 02 R43; 0 -/
  integ : Int := 0
  /-- ERR_NS of the last time-set; 32; 02 R50; 0 -/
  errNs : Nat := 0
  /-- SYSCNT of the last time-set; 64; 02 R50; none -/
  setTs : Option Nat := none
  /-- LEAP.ACTIVE; 1; 02 R38; 0 -/
  active : Bool := false
  /-- SYSCNT at which the last leap second completed; 64; 02 R38 LEAP.OCCURRED; none -/
  occurred : Option Nat := none
  /-- STAT.REF_OK; 1; 02 R55; DESIGN CHOICE 1: REFCLK runs at the release [1] -/
  refOk : Bool := true
  /-- FREE was entered after a loss of REFCLK: TQ stays 0xF; 1; 02 R55; 0 -/
  freeLost : Bool := false
  deriving DecidableEq, Repr

/-- One sensor of the thermal manager (R345 to R355). Readings, the presented value and the offset in 0.125 °C, z in
°C. -/
structure Sensor where
  raw : Int := 0
  known : Bool := false
  val : Rat := 0
  ofs : Rat := 0
  dev : Nat := 0
  clr : Nat := 0
  suspect : Bool := false
  cause : Nat := 0
  held : Bool := false
  stale : Bool := false
  nocheck : Bool := false
  corr : Bool := false
  alarm : Bool := false
  rise : Bool := false
  kept : List (Nat × Rat) := []
  z : Rat := 0
  k : Rat := 1
  deriving DecidableEq, Repr

/-- Housekeeping and the thermal manager (chapter 14). -/
structure Therm where
  /-- HK:ROUND; 32; 14 R345; 0 -/
  round : Nat := 0
  /-- HK:SUPPLY[r], r = 0 to 5, mV; 16 each; 14 Table 14.7; DESIGN CHOICE 0 until the first round [1] -/
  sup : List Nat := [0, 0, 0, 0, 0, 0]
  /-- HK:SUP_STAT.UV; 6; 14 R347; 0 -/
  uv : Nat := 0
  /-- HK:SUP_STAT.OV; 6; 14 R347; 0 -/
  ov : Nat := 0
  /-- HK:SUP_STAT.REF_FAULT; 1; 14 R348; 0 -/
  refFault : Bool := false
  /-- consecutive rounds with the references within 0.5 %; 7; 14 R348; 0 -/
  refOk : Nat := 0
  /-- HK:SUP_STAT.ICORE_OVER; 1; 14 R358; 0 -/
  icoreOver : Bool := false
  /-- HK:ICORE, 10 mA; 16; 14 R358; DESIGN CHOICE 0 until the first round [1] -/
  icore : Nat := 0
  /-- BUDGET.SB_SUP; 7; 14 R358; 64 (when PD2 turns on) -/
  sbSup : Nat := 64
  /-- BUDGET.SB_TH (THERM:DEVK.SB_TH); 7; 14 R357; 64 -/
  sbTh : Nat := 64
  /-- THERM:DEVK.k_die; Q1.15; 14 R357; 1 -/
  kDie : Rat := 1
  /-- THERM:ZDIE, °C; exact; 14 R357; 0 -/
  zDie : Rat := 0
  /-- sensors: 0 to 15 die, 16 to 19 NTC inputs, 20 + 3k + q node sensor q of link k; raw, presented value, learnt offset, counts, flags, factor k and trim z (DIE_T, NTC_T, NODE_T, RAW, DIE_RAW, NTC_RAW, ZN, SUS_MAP, SUS_LOC, ALM_MAP); 14 R350 to R355; DESIGN CHOICE readings 0, accepted, k = 1, z = 0, o = 0 (R350) [1] -/
  sens : Tbl Sensor := []
  /-- links whose k_TH was below 1 at the last round (THR_MAP); 52; 14 R355; 0 -/
  thr : Tbl Bool := []
  /-- THERM:STAT.NVM_OK; 1; 14 R360; DESIGN CHOICE 1 until the first round [1] -/
  nvmOk : Bool := true
  /-- domains shed and still off (THERM:STAT.SHED: any); 10; 14 R359; 0 -/
  shed : Nat := 0
  /-- round of the last shed; 32; 14 R359; none -/
  lastShed : Option Nat := none
  deriving DecidableEq, Repr

/-- A leg transition waiting for a subframe (R71, R72): its edge time, leg, direction, whether it is a
repeat copy and the carrying link's state is implied by the queue it stands in. -/
structure Tx where
  edge : Nat := 0
  leg : Nat := 0
  dir : Bool := false
  deriving DecidableEq, Repr

/-- The last subframe the device sent on a link (R59): its grid instant, preamble (0 B, 1 M, 2 W), word
and V, U, C, P bits. -/
structure DsFrame where
  at_ : Nat := 0
  pre : Nat := 0
  word : Nat := 0
  v : Bool := false
  u : Bool := false
  c : Bool := false
  p : Bool := false
  deriving DecidableEq, Repr

/-- One Facet link and the node behind it (chapters 03 and 04). -/
structure Link where
  /-- LINK_STAT[k].STATE; 3; 03 R85; DOWN (Table 15.4) -/
  st : LinkState := .down
  /-- consecutive blocks with preamble B at 192-frame spacing; 2; 03 R86; 0 -/
  bRun : Nat := 0
  /-- edge time of the last preamble B; 68; 03 R86; none -/
  lastB : Option Nat := none
  /-- hellos of the present block: node type and revision, serial low, serial high; 03 R86; none -/
  hId : Option (Nat × Nat) := none
  hLo : Option Nat := none
  hHi : Option Nat := none
  /-- the complete hello set of the previous block; 03 R86; none -/
  hPrev : Option (Nat × Nat × Nat × Nat) := none
  /-- consecutive blocks with one consistent hello set; 2; 03 R86; 0 -/
  hRun : Nat := 0
  /-- NODE_TYPE and firmware revision; 20; 03 Table 3.9; 0 (Table 3.19) -/
  nodeType : Nat := 0
  nodeRev : Nat := 0
  /-- NODE_ID; 64; 03 Table 3.15; 0 (Table 17.8) -/
  serial : Nat := 0
  /-- the node has been admitted (ADMIT acknowledged); 1; 03 R86; 0 -/
  admitted : Bool := false
  /-- SEQ of the ADMIT sent; 4; 03 R78; none -/
  admitSeq : Option Nat := none
  /-- the last accepted d_echo values in half ticks, newest first, at most 16; 03 R82; none -/
  echoes : List Int := []
  /-- echoes accepted since ALIGN, up to 16; 5; 03 R86; 0 -/
  nEcho : Nat := 0
  /-- run of rejected d_echo values that agree, newest first; 03 R82; none -/
  rejRun : List Int := []
  /-- DELAY[k] in 1/16 tick; 24; 03 R82; 0 (Table 17.8) -/
  delay : Nat := 0
  /-- SEQ of the DELAY_SET in force and its acknowledgement; 03 R83; none -/
  dsetSeq : Option Nat := none
  dsetAck : Bool := false
  /-- the node reports ALIGNED = 1; 1; 03 Table 3.8; 0 -/
  nodeAligned : Bool := false
  /-- LINK_STAT[k].ALIGNED; 1; 03 R83; 0 -/
  aligned : Bool := false
  /-- consecutive blocks in which NODE_TIME differed by more than 4 ns; 2; 03 R77; 0 -/
  ntBad : Nat := 0
  /-- tag and grid instant of the ECHO_REQ under way; 03 R67, R81; none -/
  echoReq : Option (Nat × Nat) := none
  /-- ASYM in force, that of the last echo, ticks; 16 signed; 03 Table 3.15, R81; 0 before the first echo -/
  asymF : Int := 0
  /-- RTT_RAW[k]; 20; 03 R81; 0 (Table 17.8) -/
  rtt : Nat := 0
  /-- TURN_RAW[k]; 18; 03 R81; 0 (Table 17.8) -/
  turn : Nat := 0
  /-- PAR_ERR[k]; 32; 03 R80; 0 (Table 17.8) -/
  parErr : Nat := 0
  /-- parity errors of the present upstream block; 7; 03 R86; 0 -/
  parBlk : Nat := 0
  /-- LATE_CNT[k].SINGLE and WITHHELD; 16 each; 03 R72, R73; 0 (Table 17.8) -/
  single : Nat := 0
  withheld : Nat := 0
  /-- ECHO_REJ[k]; 16; 03 R82; 0 (Table 17.8) -/
  echoRej : Nat := 0
  /-- BS_ERR[k] discarded statuses and U_ERR; 16 each; 03 R75, R78; 0 (Table 17.8) -/
  bsErr : Nat := 0
  uErr : Nat := 0
  /-- edge time of the last valid upstream preamble; 68; 03 R86; none -/
  lastPre : Option Nat := none
  /-- an upstream preamble has arrived in the present block; 1; 03 R86; 0 -/
  seen : Bool := false
  /-- no valid upstream preamble has come for LOSS_SF subframes, in HELLO; 1; 03 R86; 0 -/
  lossUp : Bool := false
  /-- LINK_STAT[k].NODE_V, DS_PAR, DS_LATE, NODE_STATE; 1, 8, 8, 2; 03 Table 3.19; DESIGN CHOICE 0 before the first upstream subframe [1] -/
  nodeV : Bool := false
  dsPar : Nat := 0
  dsLate : Nat := 0
  nodeState : Nat := 0
  /-- upstream CFG_CRC of the last valid status; 32; 03 Table 3.8; none -/
  upCrc : Option Nat := none
  /-- LINK_STAT[k].CRC_MATCH; 1; 03 R88; 0 -/
  crcMatch : Bool := false
  /-- a mismatch that arose while ACTIVE has been acted on; 1; 03 R88; 0 -/
  crcActed : Bool := false
  /-- LINK_STAT[k].BS_STALE; 1; 03 R76; 0 -/
  bsStale : Bool := false
  /-- consecutive counted invalid statuses; 2; 03 R76; 0 -/
  bsBad : Nat := 0
  /-- T_NTC1, T_NTC2, T_DRV of the last valid statuses, newest first, with their arrival in ns, 0.125 °C; 12 signed each; 03 Table 3.8, 14 Table 14.1; none -/
  temps : List (Nat × Int × Int × Int) := []
  /-- SUPPLY_LOW bits of the last valid status; 12; 03 Table 3.8; 0 -/
  supLow : Nat := 0
  /-- block-status bits being received, the mask of bits taken, frame position, copy of the first subframe's bit; 03 R75; 0 -/
  csBits : Nat := 0
  csTaken : Nat := 0
  rxPos : Nat := 0
  csFirst : Option Bool := none
  /-- preamble B of the block being received arrived; 1; 03 R76; 0 -/
  csB : Bool := false
  /-- management message bits being received; 48; 03 R78; 0 -/
  uBits : Nat := 0
  /-- the word of the last upstream subframe with correct parity; 24; 03 R80; none -/
  rxWord : Option Nat := none
  /-- downstream queues: safe-state words (state, copies left), control words, first copies, pattern words, repeat copies, management words; 03 R74, R103; empty -/
  safeQ : Option (Nat × Nat) := none
  ctlQ : List Nat := []
  txQ : List Tx := []
  patQ : List Nat := []
  /-- the grid instant from which the queued pattern words may go; 05 R142; 0 -/
  patAt : Nat := 0
  repQ : List Tx := []
  mgtQ : List Nat := []
  /-- management messages waiting, the message being sent and the SEQ counter; 48 each; 03 R78; none -/
  msgQ : List Nat := []
  msgCur : Nat := 0
  msgSeq : Nat := 0
  /-- control, management and full pattern changes sent in the present block; 03 R90; 0 -/
  ctlN : Nat := 0
  mgtN : Nat := 0
  patN : Nat := 0
  /-- downstream block status being sent; 192; 03 Table 3.7; 0 -/
  dsStatus : Nat := 0
  /-- last downstream subframe sent; 03 R59; none -/
  ds : Option DsFrame := none
  /-- node events: DESAT, INTERLOCK, UVLO, DC_OV counts; 8 each; 04 Table 4.13; 0 (Table 17.8) -/
  nDesat : Nat := 0
  nIntlk : Nat := 0
  nUvlo : Nat := 0
  nDcov : Nat := 0
  /-- counts of codes outside NODE_EVT (CMD_REJ and unlisted codes); 04 R99, R111; 0 -/
  nRej : Nat := 0
  nOther : Nat := 0
  /-- NODE_LAST[k] CODE and POS; 6, 4; 04 Table 4.13; 0 (Table 17.8) -/
  lastCode : Nat := 0
  lastPos : Nat := 0
  /-- BYP_STAT[k].SW; 2; 04 R119; 0 open -/
  byp : Nat := 0
  /-- TS64s of INTERLOCK reports not yet paired; 04 R97; none -/
  intlk : List Nat := []
  /-- SWDLY[k][p]: turn-on and turn-off delay by position; 14 each; 04 Table 4.13; 0 (Table 17.8) -/
  dlyOn : Tbl Nat := []
  dlyOff : Tbl Nat := []
  /-- gate-supply voltages by position, 2 mV; 14; 04 Table 4.8; 0 -/
  supV : Tbl Nat := []
  /-- chopper on-time of the previous block, 10 ns; 18; 04 Table 4.8; 0 -/
  chopT : Nat := 0
  /-- last delivered sample by QTY, with the index of its sample instant; 18 signed; 03 R69, 07 R184; none -/
  samp : Tbl (Int × Nat) := []
  /-- the sample by QTY before the last, for carried inputs; 07 R182; none -/
  sampPrev : Tbl (Int × Nat) := []
  /-- configuration items the node has been sent: opcode and argument; 04 R100; none -/
  cfg : List (Nat × Nat) := []
  deriving DecidableEq, Repr

/-- One leg of a Chord modulator: an H-bridge leg of a cell, or the leg of a leg node (chapter 05). -/
structure LegSt where
  /-- last handed direction is 1; 1; 05 R131; 0: low -/
  high : Bool := false
  /-- last handed transition instant, ticks; 68; 05 R131; none -/
  last : Option Nat := none
  /-- the leg has had its transition in the present half-period; 1; 05 R127; 0 -/
  latched : Bool := false
  /-- CARRY[k] of the leg, ticks of high time owed; 05 R132; 0 (Table 17.9 live) -/
  carry : Int := 0
  /-- instant at which the bootstrap on-time counter last restarted; 05 R134; none -/
  tOn : Option Nat := none
  /-- end of a forced low hold; 05 R135, R137; none -/
  hold : Option Nat := none
  /-- the first UVLO report of a forced refresh and the end of its hold; 05 R135; none -/
  uvlo : Option (Nat × Nat) := none
  /-- a forced refresh waits for the next commit; 1; 05 R135; 0 -/
  force : Bool := false
  /-- an override in effect: 0 none, 1 positive, 2 negative; 2; 05 R138; 0 -/
  ovr : Nat := 0
  /-- the closing transition of a withheld pulse is still to be withheld: the first one's instant and direction; 03 R73; none -/
  skip : Option (Nat × Bool) := none
  /-- a DIR = 0 was placed ahead of the leg's own fall (refresh, forced refresh): that instant; 05 R134, R135; none -/
  owe : Option Nat := none
  /-- a refresh's return transition that lies in a later segment: Tg and Tr; 05 R134; none -/
  ret : Option (Nat × Nat) := none
  deriving DecidableEq, Repr

/-- The Chord modulator of one unit: cells 0 to 47, legs 48 to 51 (chapter 05). -/
structure Chord where
  /-- CELL_STAT[k].MODE; 3; 05 Table 5.12; idle -/
  mode : ChMode := .idle
  /-- CELL_STAT[k].SLOT and N_SLOT; 5 each; 05 R122; 0 -/
  slot : Nat := 0
  nslot : Nat := 0
  /-- carrier phase in ticks; 05 R121, R122; 0 -/
  phi : Nat := 0
  /-- dwell remaining, ticks; 05 R123; 0 -/
  dwell : Nat := 0
  /-- the carrier has been given a phase since the start, which moves by dwelling only; 1; 05 R123; 0 -/
  placed : Bool := false
  /-- start of the present half-period (ticks), its end, and whether the ramp rises; 05 R127; none -/
  half : Option (Nat × Nat × Bool) := none
  /-- REF[k].u after the limiter, raw Q1.15; 16; 05 R124; 0 -/
  u : Int := 0
  /-- REF[k].g in Q5.11; 16; 05 R124; 0 -/
  g : Nat := 0
  /-- rescaled share of R125, exact; 05 R125; 0 -/
  gx : Rat := 0
  /-- CELL_STAT[k].LIM_U, LIM_PH; 1 each; 05 R124, R139; 0 -/
  limU : Bool := false
  limPh : Bool := false
  /-- pattern hold as it was at the cell's last commit; 1; 05 R141; 0 -/
  patHold : Bool := false
  /-- PH_SENT[k]; 20; 05 R141; 0 (Table 17.9) -/
  phSent : Nat := 0
  /-- a full pattern change is due; 1; 05 R141; 0 -/
  patDue : Bool := false
  /-- committed φ_i, raw Q1.15 of a quarter period; 05 R139; 0 -/
  phRaw : Int := 0
  /-- PULSE_CNT[k].OVL and DROP; 16 each; 05 R131; 0 (Table 17.9) -/
  ovl : Nat := 0
  drop : Nat := 0
  /-- BOOT_CNT[k].REFRESH and FORCED; 16 each; 05 R134, R135; 0 (Table 17.9) -/
  refresh : Nat := 0
  forced : Nat := 0
  /-- LATE_PL[k].CARRY_LOST and late placements; 16 each; 05 R130, R132; 0 (Table 17.9) -/
  lost : Nat := 0
  late : Nat := 0
  /-- CMP_ERR[k]; 16; 05 R144; 0 (Table 17.9) -/
  cmp : Nat := 0
  /-- block of the last engine mismatch; 05 Table 5.3; none -/
  cmpBlk : Option Nat := none
  /-- legs A and B; 05; as LegSt -/
  legA : LegSt := {}
  legB : LegSt := {}
  /-- instant from which modulation may begin after a start, ticks; 05 R137; none -/
  startAt : Option Nat := none
  /-- told to rest, and the instant from which; 05 R136; none -/
  restAt : Option Nat := none
  /-- the start peak and the rest peak once met, and the instant from which a return from rest may begin, ticks; 05 R136, R137; none -/
  startPk : Option Nat := none
  restPk : Option Nat := none
  backAt : Option Nat := none
  /-- the last carrier peak computed, ticks; 68; 05 R136; none -/
  lastPk : Option Nat := none
  /-- DAB period last sent, 125 ps; 20; 05 R142; 0 -/
  perSent : Nat := 0
  /-- H-bridge transitions handed over since the last Vertex latch; 06 Table 6.1; 0 -/
  nTr : Nat := 0
  /-- a transition has been handed over in the present block; 1; 09 R238; 0 -/
  swBlk : Bool := false
  deriving DecidableEq, Repr

/-- What Vertex latches of a cell at L_n (Table 6.1). -/
structure VIn where
  svc : Bool := false
  starting : Bool := false
  leave : Bool := false
  cause : Bool := false
  suspect : Bool := false
  stale : Bool := false
  v : Option Int := none
  ntc : Option Rat := none
  hw : Option Rat := none
  k : Rat := 1
  nTr : Nat := 0
  law : Int := 0
  gx : Rat := 0
  aged : Bool := false
  sub : Bool := false
  wd : Bool := false
  deriving DecidableEq, Repr

/-- Vertex per cell (chapter 06). -/
structure VCell where
  /-- inputs latched at L_n; 06 Table 6.1; none -/
  inp : VIn := {}
  /-- STATE[k].ROLE; 3; 06 R147; absent -/
  role : Role := .absent
  /-- STATE[k].AGE, blocks in the present role; 16; 06 Table 6.6; 0 -/
  age : Nat := 0
  /-- STATE[k].HEALTH; 2; 06 R153; GOOD -/
  health : Health := .good
  /-- blocks since the last WATCH cause; 06 R153; 0 -/
  clean : Nat := 0
  /-- a WATCH cause has arisen since the last latch; 1; 06 R153; 0 -/
  cause : Bool := false
  /-- the cell is to become LEAVING (SUPPLY_LOW, withdrawal); 1; 06 R167, R168; 0 -/
  leave : Bool := false
  /-- BYPASS is due at the next commit; 1; 06 R167; 0 -/
  bypDue : Bool := false
  /-- that BYPASS completes a withdrawal; 1; 06 R167; 0 -/
  wdDue : Bool := false
  /-- SHARE[k].G published, Q5.11; 16; 06 R157; 0 -/
  g : Nat := 0
  /-- SHARE[k].G_TGT, exact; 06 R156; 0 -/
  gTgt : Rat := 0
  /-- HEAT[k] TJ and H, 0.125 °C; 16 each; 06 R150, R151; 0 -/
  tj : Rat := 0
  h : Rat := 0
  /-- junction rise filter ΔTj; 06 R150; 0 -/
  dtj : Rat := 0
  /-- the filter has started; 1; 06 R150; 0 -/
  dtjOn : Bool := false
  /-- TRIM[k] PH_VTX and EPS, raw Q1.15; 16 each; 06 R152, R158; 0 -/
  ph : Int := 0
  eps : Int := 0
  /-- STATE[k].CAPPED and SUBST; 1 each; 06 Table 6.6; 0 -/
  capped : Bool := false
  subst : Bool := false
  /-- blocks since the cell last returned from rest; 06 R160; 65535 -/
  sinceRest : Nat := 65535
  deriving DecidableEq, Repr

/-- Vertex per string (chapter 06). -/
structure VStr where
  /-- sums over the commits since the last latch: count, i², |i|, v × i, largest |v|, sum of φ_law; 06 Table 6.1; 0 -/
  n : Nat := 0
  sumI2 : Rat := 0
  sumI : Rat := 0
  sumP : Rat := 0
  vBlk : Int := 0
  /-- largest |v| of the last 96 blocks, newest first; 06 R152 V_ACT; none -/
  vHist : List Int := []
  /-- latched block values: the square of I_blk, |I|_blk, P̄_s, V_ACT, φ̄_s; 06 R150, R152; 0 -/
  iBlk : Rat := 0
  iAbs : Rat := 0
  pBar : Rat := 0
  vAct : Int := 0
  phBar : Rat := 0
  /-- the square of I_blk, P̄_s and V_ACT as last published: STR_MEAS[s], STR_PWR[s]; 06 R148, 17 R428; 0 -/
  iBlkPub : Rat := 0
  pBarPub : Rat := 0
  vActPub : Int := 0
  /-- consecutive blocks with I_blk at or below REST_I.ON, and light load; 06 R159; 0 -/
  light : Nat := 0
  isLight : Bool := false
  /-- STR_FLAG[s]: EXH, LOW at the last supervised evaluation, CAPPED, NOSHARE, REST_OK; 06 Table 6.5; 0 -/
  exh : Bool := false
  low : Bool := false
  capped : Bool := false
  noshare : Bool := false
  restOk : Bool := false
  /-- supervision of the string has begun; 1; 06 R165; 0 -/
  watch : Bool := false
  /-- the sharing cells of the previous block; 06 R155; none -/
  prevE : List Nat := []
  deriving DecidableEq, Repr

/-- One element instance of a context (R173). -/
structure Elem where
  /-- ST0 to ST7 and the resonator words a_1 to a_6 (8 to 13), b_1 to b_6 (14 to 19); 40 each; 07 R173, 08 R222; 0 -/
  st : Tbl Int := []
  /-- shadow ST words; 40 each; 07 R188; 0 -/
  sst : Tbl Int := []
  /-- committed OUT0 to OUT3; 16 each; 07 R188; 0 -/
  out : List Int := [0, 0, 0, 0]
  /-- shadow OUT0 to OUT3; 16 each; 07 R188; 0 -/
  sout : List Int := [0, 0, 0, 0]
  /-- the instance reached END in this period; 1; 07 R188; 0 -/
  done : Bool := false
  /-- inputs latched for the run, IN0 to IN7; 16 each; 07 R184; 0 -/
  inp : Tbl (Option Int) := []
  /-- inputs as latched for the last run; 16 each; 08 R229; 0 -/
  inpLast : Tbl (Option Int) := []
  /-- H_e hold value and whether it tracks MAN; 08 R211; 0, 1 -/
  hold : Int := 0
  track : Bool := true
  /-- the next closed run is the first after a close; 1; 08 R212; 0 -/
  first : Bool := false
  /-- the last committed OUT0 was clamped at OUT_HI (1) or OUT_LO (−1); 08 R220; 0 -/
  clamp : Int := 0
  sclamp : Int := 0
  /-- Spline y (Q1.31), v and HOST target; 08 R226; 0 -/
  y : Int := 0
  v : Int := 0
  tgt : Int := 0
  /-- Spline has arrived; 1; 08 R226; 1 -/
  arrived : Bool := true
  deriving DecidableEq, Repr

/-- One control context (chapters 07 and 08). -/
structure Ctx where
  /-- CTX_x:CTRL.EN; 1; 07 R191; 0 (Table 17.12) -/
  en : Bool := false
  /-- CTX_x:CTRL.REQ pending request; 3; 08 R209; 0 (Table 17.12) -/
  req : Nat := 0
  /-- CTX_x:STAT.STATE; 3; 08 R208; IDLE -/
  st : CtxState := .idle
  /-- OVR_CONSEC; 2; 07 R188; 0 -/
  ovr : Nat := 0
  /-- OVR_TOTAL[j]; 16; 07 R188; 0 (Table 17.12) -/
  ovrTotal : Nat := 0
  /-- STAT.STALE; 8; 07 R184; 0 -/
  stale : Nat := 0
  /-- STAT.SAT of the last run, of the run under way; 1; 07 R177; 0 -/
  sat : Bool := false
  ssat : Bool := false
  /-- elements 0 to 15; 07 R173; as Elem -/
  el : Tbl Elem := []
  /-- K0 to K63 applied; 16 each; 08 R215; NVM 0 (Table 8.9) -/
  k : Tbl Int := []
  /-- staged coefficient writes, oldest first; 08 R215; none -/
  staged : List (Nat × Int) := []
  /-- how many of the staged values a CMD_CTX_LOAD staged, and its slot once read; 08 R217; none -/
  load : Option (Nat × Bool) := none
  loadVals : List (Nat × Int) := []
  /-- MAN, SPL_SRC, SLEW, ACCEL of the context; 32 each; 08 R230; NVM 0, 0, 0x0010624E, 1 (Table 8.9) -/
  man : Int := 0
  splSrc : Nat := 0
  slew : Nat := 0x10624E
  accel : Nat := 1
  /-- ELEM of the last TGT write; 4; 08 Table 8.9; 0 -/
  tgtElem : Nat := 0
  /-- WCET CP and OPS; 16 each; 07 R196, R204; 0 (Table 17.12) -/
  ops : Nat := 0
  cp : Nat := 0
  /-- admission still counts the context until the next commit after EN cleared; 1; 07 R191; 0 -/
  adm : Bool := false
  /-- SLACK[j]; 16; 07 Table 7.11; 0xFFFF not run -/
  slack : Nat := 0xFFFF
  /-- FAULT_POL acts at the next commit; outputs read 0 under it; 1 each; 07 R190, Table 7.3; 0 -/
  polDue : Bool := false
  zero : Bool := false
  deriving DecidableEq, Repr

/-- Lattice as a whole (chapter 07). -/
structure Lattice where
  /-- contexts 1 to 63; 07 R172; as Ctx -/
  ctx : Tbl Ctx := []
  /-- T_c and LOOP_LAT in force, and the accepted values waiting with the instant from which; 07 R181; 5000, 4000 (Table 17.11) -/
  tc : Nat := 5000
  lat : Nat := 4000
  tcNext : Option (Nat × Nat) := none
  latNext : Option (Nat × Nat) := none
  /-- ARR: A in ns; 12; 07 R183; 1540 (no upstream delay) -/
  arr : Nat := 1540
  /-- DEC: log2 N_1, N_2, N_3 in force and chosen; 3 each; 07 R194; 0 -/
  dec : List Nat := [0, 0, 0]
  decNext : List Nat := [0, 0, 0]
  /-- BUDGET.FLOOR; 1; 07 R195; 0 -/
  floor : Bool := false
  /-- DUTY; 11; 07 R195; 0 -/
  duty : Nat := 0
  /-- INFLIGHT peaks; 9 each; 07 Table 7.9; 0 -/
  peakAll : Nat := 0
  peakC0 : Nat := 0
  /-- PIDX: m of the last commit; 64; 07 Table 7.9; 0 -/
  pidx : Nat := 0
  /-- a commit has been made since PD2 turned on; 1; 07 R180; 0 -/
  ran : Bool := false
  /-- OVR_MAP; 64; 07 R188; 0 (Table 17.11) -/
  ovrMap : Nat := 0
  /-- chord feedback: clamped-cell counts by string, clamp flags by unit, leg flags; 05 R126, 07 Table 7.1; 0 -/
  fbCount : Tbl Nat := []
  fbPh : Tbl Bool := []
  fbLeg : Tbl Bool := []
  /-- microcode memory, 16,384 words; 32 each; 07 R200; 0 (R200) -/
  code : Tbl Word := []
  deriving DecidableEq, Repr


/-- A coil component: a winding or an inductor (R236 to R241). -/
structure Coil where
  started : Bool := false
  t1 : Rat := 0
  t2 : Rat := 0
  amb : Rat := 0
  sumP : Rat := 0
  nP : Nat := 0
  z : Rat := 0
  k : Rat := 1
  trip : Bool := false
  subst : Bool := false
  deriving DecidableEq, Repr

/-- The models of one cell (chapter 09). -/
structure MCell where
  /-- winding: WIND[k] T1, body node, block-loss sum, z, k_W; 09 R237 to R241; k 1, not started -/
  wind : Coil := {}
  /-- block sums of QTY 0, their count, largest, smallest, committed phase sum and count; 09 R237, R247; 0 -/
  vSum : Rat := 0
  vN : Nat := 0
  vMax : Rat := 0
  vMin : Rat := 0
  phSum : Rat := 0
  phN : Nat := 0
  /-- last QTY 0 and sums of i_c², V and counts over the round; 09 R248, R249; 0 -/
  vLast : Option Rat := none
  icSum : Rat := 0
  icN : Nat := 0
  vRSum : Rat := 0
  vRN : Nat := 0
  /-- Σ I_h² of the last block; 09 R237; 0 -/
  ih2 : Rat := 0
  /-- last QTY 2 sample, λ in Q1.31, φ_core, k_C, core trip standing; 09 R243 to R245; 0, k 1 -/
  vsLast : Option Int := none
  lam : Rat := 0
  fresh : Bool := false
  /-- commits since λ last leaked; 09 R246; 0 -/
  lamAge : Nat := 0
  phCore : Int := 0
  kc : Rat := 1
  coreTrip : Bool := false
  /-- ENERGY[k] E in J and ripple in V; 09 R247; 0 -/
  energy : Rat := 0
  ripple : Rat := 0
  /-- CAP[k] T_cap, z, k_K, started, trip standing; 09 R248; not started, k 1 -/
  tcap : Rat := 0
  capOn : Bool := false
  zk : Rat := 0
  kk : Rat := 1
  capTrip : Bool := false
  /-- consumed life A as a fraction (Q0.48); 09 R249; 0 (R250) -/
  age : Rat := 0
  ageAlarm : Bool := false
  /-- FACT[k] k_i in force at the last commit; 09 R232; 1 -/
  ki : Rat := 1
  deriving DecidableEq, Repr

/-- The load models (chapter 09). -/
structure Model where
  cell : Tbl MCell := []
  /-- inductors of strings 0 to 3; IND_STAT[s], IND_INT[s]; 09 R238 to R241; k 1, not started -/
  ind : Tbl Coil := []
  /-- per string: last i_m, sums of i² and d², counts over the block; 09 R238; 0 -/
  iLast : Tbl Rat := []
  iSum : Tbl Rat := []
  dSum : Tbl Rat := []
  iN : Tbl Nat := []
  /-- block sum and count of QTY 6 over enabled legs; 09 R237; 0 -/
  busSum : Rat := 0
  busN : Nat := 0
  /-- V2 bus mean of the last block; 09 R237; none -/
  bus : Option Rat := none
  /-- STAT.SAVE_LATE; 1; 09 R250; 0 -/
  saveLate : Bool := false
  deriving DecidableEq, Repr

/-- An off-state run (R253 to R257). -/
structure OsRun where
  running : Bool := false
  slot : Nat := 0
  handle : Nat := 0
  aborted : Bool := false
  /-- links selected -/
  links : List Nat := []
  /-- injection under way by link: its index + 1 -/
  inj : Tbl Nat := []
  /-- injections still to make by link -/
  todo : Tbl (List Nat) := []
  /-- second phase: cells still to run steps 2 and 3 -/
  serial : List Nat := []
  phase2 : Bool := false
  anyFault : Bool := false
  deriving DecidableEq, Repr

/-- One signal sample of a pilot run: its instant in ns and its value in its own units. -/
structure PtSample where
  t : Rat := 0
  v : Rat := 0
  deriving DecidableEq, Repr

/-- A pilot-tone run (R259 to R263). -/
structure PtRun where
  running : Bool := false
  aborted : Bool := false
  slot : Nat := 0
  cell : Nat := 0
  mode : Nat := 0
  amp : Nat := 0
  freq : Nat := 0
  ncyc : Nat := 0
  navg : Nat := 0
  /-- T0, once the first commit has come -/
  t0 : Option Nat := none
  /-- window under way, and the effective instants of commits that discard the window they lie in -/
  win : Nat := 0
  badT : List Rat := []
  /-- samples of the window: excitation, QTY 1 or current difference parts, QTY 0 -/
  ex : List PtSample := []
  r1 : List PtSample := []
  r2 : List PtSample := []
  r3 : List PtSample := []
  /-- window ratios kept so far: LLK, C and ESR, C_f, each as real and imaginary part -/
  h1 : List (Rat × Rat) := []
  h2 : List (Rat × Rat) := []
  h4 : List (Rat × Rat) := []
  discarded : Nat := 0
  /-- sums over the run for V2 and δ̄ -/
  phSum : Rat := 0
  phN : Nat := 0
  busSum : Rat := 0
  busN : Nat := 0
  /-- tone value of the last commit, raw Q1.15 -/
  tone : Int := 0
  valid : Nat := 0
  qual : Nat := 0
  deriving DecidableEq, Repr

/-- Load diagnostics (chapter 10). -/
structure Diag where
  /-- OS_STAT and the off-state run under way; 10 R253; none -/
  os : OsRun := {}
  /-- OS_RES[k], k = 0 to 51; 32; 10 R257; 0 (Table 17.18) -/
  res : Tbl Nat := []
  /-- OS_VAL: reading by 16 × link + injection; 14 signed; 10 Table 10.8; none -/
  val : Tbl (Option Int) := []
  /-- PT_STAT, PT_QUAL and the pilot run under way; 10 R259; none -/
  pt : PtRun := {}
  /-- estimates, trends (16 fraction bits), baselines by quantity (0 LLK, 1 C, 2 ESR by cell; 3 C_f by string) × 64 + index: PT_LLK, PT_C, PT_ESR, PT_CF; 10 R263; 0 (NVM) -/
  est : Tbl Nat := []
  trend : Tbl Nat := []
  /-- standing alarms (PT_AMAP), by the same key; 10 R263; 0 -/
  alarm : Tbl Bool := []
  deriving DecidableEq, Repr

/-- One threshold of a channel (R288 to R291). -/
structure Thr where
  on : Bool := false
  cnt : Nat := 0
  first : Nat := 0
  deriving DecidableEq, Repr

/-- An output computed and not yet published, or published (R274 to R277): value, stamp in ticks, and the slot of
the swap whose fade it ends. -/
structure POut where
  val : Int := 0
  stamp : Nat := 0
  done : Option Nat := none
  deriving DecidableEq, Repr

/-- A cross-fade (R286): from, to, length, outputs computed, its command's slot. -/
structure Fade where
  frm : Nat := 0
  dst : Nat := 0
  len : Nat := 0
  n : Nat := 0
  slot : Nat := 0
  deriving DecidableEq, Repr

/-- A time in which a channel was RUNNING, now over (R297): its SYSCNT instants, the output period in ns, whether the channel
was of the protection class, and its outputs, newest first. -/
structure PRun where
  frm : Nat := 0
  to_ : Nat := 0
  per : Rat := 0
  prot : Bool := false
  outs : List POut := []
  deriving DecidableEq, Repr

/-- One Prism channel (chapter 11). -/
structure Chan where
  /-- CH_STAT[k].STATE; 3; 11 R282; STOPPED -/
  st : ChanState := .stopped
  /-- c0 of the accepted start, and the instant from which it may come; 11 R282; none -/
  c0 : Option Nat := none
  start : Nat := 0
  /-- delay line: the bits at the pin, newest first, at most 1,023; 1 each; 11 R272; DESIGN CHOICE empty [1] -/
  line : List Bool := []
  /-- integrators i1, i2, i3 and comb delays; 32 each; 11 R273; 0 -/
  i1 : BitVec 32 := 0
  i2 : BitVec 32 := 0
  i3 : BitVec 32 := 0
  p3 : BitVec 32 := 0
  p1 : BitVec 32 := 0
  p2 : BitVec 32 := 0
  /-- CIC outputs, newest first, at most 384; 24 signed each; 11 R274; none -/
  hist : List Int := []
  /-- FIR outputs computed since c0; 11 R282; 0 -/
  nOut : Nat := 0
  /-- CH_STAT[k].SAT; 8; 11 R273; 0 -/
  sat : Nat := 0
  /-- response in force; 4; 11 R285; DESIGN CHOICE 0 while STOPPED [1] -/
  now : Nat := 0
  /-- running fade and pending swap; 11 R286, R287; none -/
  fade : Option Fade := none
  pend : Option (Nat × Nat × Nat) := none
  /-- outputs computed and not yet published, oldest first; 11 R277; none -/
  wait : List POut := []
  /-- OUT[k] value, VALID and stamp; 24, 1, 68; 11 R292; 0 (Table 17.13) -/
  out : POut := {}
  valid : Bool := false
  /-- published outputs since RUNNING, newest first, kept for ROC and the phasor window; 11 R289, 12 R295; none -/
  pub : List POut := []
  nPub : Nat := 0
  /-- SYSCNT at which the channel entered RUNNING; 64; 12 R297; 0 -/
  runAt : Nat := 0
  /-- the channel's earlier times of RUNNING that a frame to come may still use; 12 R297; none -/
  past : List PRun := []
  /-- thresholds A, B, R; 11 R290; deasserted -/
  ta : Thr := {}
  tb : Thr := {}
  tr : Thr := {}
  deriving DecidableEq, Repr

/-- A coefficient bank (R280). -/
structure Bank where
  loaded : Bool := false
  taps : Nat := 0
  rf : Nat := 0
  gd2 : Nat := 0
  coef : List Int := []
  deriving DecidableEq, Repr

/-- Prism (chapter 11). -/
structure Prism where
  chan : Tbl Chan := []
  bank : Tbl Bank := []
  /-- bank loads under way: bank, and slot, taps, rf, gd2; 11 R280; none -/
  loading : Tbl (Option (Nat × Nat × Nat × Nat)) := []
  /-- CLK_STAT: ACQ, LOSS, RANGE, mean period in 1/256 ns; 1, 1, 1, 16; 11 R268; 0 -/
  acq : Bool := false
  loss : Bool := false
  range : Bool := false
  pbar : EdgeMean := {}
  deriving DecidableEq, Repr

/-- A phasor frame (R294 to R300). -/
structure PFrame where
  tai : Nat := 0
  flags : Nat := 0
  freq : Int := 0
  rocof : Int := 0
  ph : List (Int × Int) := []
  ps : List (Int × Int) := []
  sr : Int := 0
  deriving DecidableEq, Repr

/-- The time state that a phasor frame carries, from an instant on (R299). -/
structure PSnap where
  t : Nat := 0
  st : LocusState := .free
  tq : Nat := 15
  left : Option Nat := none
  leap : Bool := false
  neg : Bool := false
  deriving DecidableEq, Repr

/-- The phasor unit (chapter 12). -/
structure Phasor where
  /-- queue of 16 frames, oldest first; 12 R300; empty -/
  queue : List PFrame := []
  /-- newest queued frame, for export; 12 R300; none -/
  newest : Option PFrame := none
  /-- TAI of the last report instant emitted; 64; 12 R299; none -/
  lastTai : Option Nat := none
  /-- OFFSET steps, newest first: SYSCNT of the step and OFFSET before it; 12 R294, R299 TSTEP; none -/
  steps : List (Nat × Nat) := []
  /-- the time state over time, newest first; 12 R299; none -/
  hist : List PSnap := []
  /-- DROP and SKIP; 32 each; 12 R299, R300; 0 (Table 17.14) -/
  drop : Nat := 0
  skip : Nat := 0
  deriving DecidableEq, Repr

/-- The wavefront path of one channel (R302 to R305). -/
structure WChan where
  i1 : BitVec 32 := 0
  i2 : BitVec 32 := 0
  i3 : BitVec 32 := 0
  p3 : BitVec 32 := 0
  p1 : BitVec 32 := 0
  p2 : BitVec 32 := 0
  /-- outputs, newest first, at most 17 -/
  hist : List Int := []
  /-- the compared value at the previous output -/
  prev : Option Int := none
  /-- outputs still to ignore after an arrival -/
  hold : Nat := 0
  deriving DecidableEq, Repr

/-- A wavefront arrival (R304, R305): stamp in ticks, channel, D_n. -/
structure Arrival where
  stamp : Nat := 0
  chan : Nat := 0
  d : Int := 0
  deriving DecidableEq, Repr

/-- The wavefront path (chapter 12). -/
structure Wave where
  /-- the path runs, waits for a clock; 1 each; 12 R303; 0 -/
  running : Bool := false
  waitClk : Bool := false
  /-- outputs still to discard after a start; 2; 12 R303; 0 -/
  skip : Nat := 0
  chan : Tbl WChan := []
  /-- arrival FIFO of 64, oldest first; 12 R305; empty -/
  fifo : List Arrival := []
  /-- ARR_LOST; 32; 12 R305; 0 (Table 17.14) -/
  lost : Nat := 0
  /-- the instant of the last output, ticks; 12 R302, R304; 0 -/
  lastAt : Rat := 0
  deriving DecidableEq, Repr

/-- A frame of a record: its instant in ns with the ticks beyond it, and its bytes as values (R313 to R315). -/
structure Frame where
  t : Nat := 0
  fine : Nat := 0
  bytes : List Nat := []
  deriving DecidableEq, Repr

/-- A record, open or closed (R310 to R313). -/
structure Rec where
  id : Nat := 0
  slot : Nat := 0
  src : Nat := 0
  unit : Nat := 0
  ntrig : Nat := 0
  ttrig : Nat := 0
  fine : Nat := 0
  short : Bool := false
  trunc : Bool := false
  ecc : Bool := false
  tFirst : Nat := 0
  tEnd : Nat := 0
  left : Nat := 0
  frames : List Frame := []
  fbytes : Nat := 0
  map : Nat := 0
  tframe : Nat := 0
  offset : Nat := 0
  tq : Nat := 0
  lstate : Nat := 0
  reads : Nat := 0
  keep : Bool := false
  deriving DecidableEq, Repr

/-- One ring: WF, DIST or TRACE (R308 to R311). -/
structure RingSt where
  /-- slots fixed when EN set; 16; 12 R308; 0 -/
  slots : Nat := 0
  /-- frames of the live slot, newest first; 12 R308; none -/
  live : List Frame := []
  /-- the instant from which the live slot holds everything; 64; 12 R310; 0 -/
  since : Nat := 0
  /-- the live slot's index; 12 R311; 0 -/
  slot : Nat := 0
  /-- open record; 12 R310; none -/
  opened : Option Rec := none
  /-- stored records, newest first; 12 R311; none -/
  recs : List Rec := []
  /-- slots that have held a record; 12 R311; none -/
  used : List Nat := []
  /-- x_CNT OVERWRITTEN and LOST, x_NEW; 16, 16, 32; 12 R311; 0 (Table 17.15) -/
  nOver : Nat := 0
  lost : Nat := 0
  newest : Nat := 0
  deriving DecidableEq, Repr

/-- An event log entry (Table 12.10). -/
structure LogEntry where
  seq : Nat := 0
  ts : Nat := 0
  flags : Nat := 0
  page : Nat := 0
  bit : Nat := 0
  detail : Nat := 0
  unit : Nat := 0
  sub : Nat := 0
  arg : Int := 0
  deriving DecidableEq, Repr

/-- A capture readout under way (R317). -/
structure CapRead where
  slot : Nat := 0
  part : Nat := 0
  recid : Nat := 0
  off : Nat := 0
  len : Nat := 0
  addr : Nat := 0
  /-- bytes to transfer, and the LOG sequence kept from -/
  n : Nat := 0
  short : Bool := false
  keep : Bool := false
  deriving DecidableEq, Repr

/-- Capture memory, event log and triggers (chapter 12). -/
structure Capture where
  wf : RingSt := {}
  dist : RingSt := {}
  trace : RingSt := {}
  /-- next record identifier; 12 R311; 1 -/
  nextId : Nat := 1
  /-- event log ring, newest first; 12 R316; empty -/
  log : List LogEntry := []
  /-- PD0 log buffer of 256, oldest first; 12 R316; empty -/
  buf : List LogEntry := []
  /-- next log sequence number; 64; 12 R316; 1 -/
  logSeq : Nat := 1
  /-- LOG_LOST; 32; 12 R316; 0 (Table 17.15) -/
  logLost : Nat := 0
  /-- entries dropped while PD7 was off; 1; 12 R316; 0 -/
  lostOff : Bool := false
  /-- readouts under way; 12 R317; none -/
  reads : List CapRead := []
  /-- store writes under way, oldest first: slot, offset, length; 12 R318; none -/
  storeWr : List (Nat × Nat × Nat) := []
  /-- STORE partition bytes by offset; 8 each; 12 R318; DESIGN CHOICE 0 until written [1] -/
  store : Tbl Byte := []
  /-- ECC corrected and uncorrectable; 16 each; 12 R320; 0 (Table 17.15) -/
  eccC : Nat := 0
  eccU : Nat := 0
  /-- trigger output pulse end in ns; 12 R319; none -/
  pulse : Option Nat := none
  deriving DecidableEq, Repr

/-- One subframe of a stream receiver (R332, R333). -/
structure RxSt where
  /-- mute weight in 2^-20 of SYSCNT-ns steps (0 to 1,000,000); 13 R332; DESIGN CHOICE 0 [1] -/
  w : Nat := 0
  /-- consecutive missing samples, good frames after a mute, steps without underrun; 13 R330, R332; 0 -/
  miss : Nat := 0
  good : Nat := 0
  steps : Nat := 0
  /-- mute causes: missing samples, underrun; 13 R330, R332; 0 -/
  cMiss : Bool := false
  cUnder : Bool := false
  /-- value placed at the last step that did not underrun; 13 R330; 0 -/
  placed : Rat := 0
  /-- SYSCNT of the last weight evaluation; 13 R332; 0 -/
  wt : Nat := 0
  deriving DecidableEq, Repr

/-- One stream port (chapter 13). -/
structure Port where
  /-- RX_STAT[n].STATE; 3; 13 R325; OFF -/
  st : RxState := .off
  /-- STABLE; 5; 13 R325; 0 -/
  stable : Nat := 0
  /-- identified rate; 4; 13 R325; 0 -/
  rate : Nat := 0
  /-- RX_TS[n] and FINE: edge time of the last preamble B; 68; 13 R326; 0 (Table 17.16) -/
  ts : Nat := 0
  /-- mean frame interval F̂ in ticks, and the block stamps it rests on with their frame numbers since LOCKING, newest first; 13 R327; 0 -/
  fhat : Rat := 0
  blocks : List (Nat × Nat) := []
  /-- edge time of the present block's frame 0 on the grid, and its frame number since LOCKING; 68; 13 R327; 0 -/
  tb : Nat := 0
  total : Nat := 0
  /-- stamp of the last frame preamble; 13 R332; none -/
  lastFrame : Option Nat := none
  /-- frames received in the present block; 8; 13 R325; 0 -/
  nFrames : Nat := 0
  /-- every interval of the present block has been stable, a frame of it was concealed, intervals off F̂; 13 R325, R332; 0 -/
  stableOk : Bool := false
  blkConc : Bool := false
  offRun : Nat := 0
  /-- received samples, newest first: stamp of the block, frame of the block, both words; 13 R327, R329; none -/
  frames : List (Nat × Nat × Int × Int) := []
  /-- the last frame interval in ticks since SEARCH began; 13 R325; 0 -/
  ivl : Nat := 0
  /-- RX_STAT PRO, NONAUDIO, OFS, UNSUP, LAT_LOW, LOST; 1 each; 13 Table 13.9; 0 -/
  pro : Bool := false
  nonaudio : Bool := false
  ofs : Bool := false
  unsup : Bool := false
  latLow : Bool := false
  lost : Bool := false
  /-- blocks since the last non-audio sign; 13 R338; 0 -/
  audioRun : Nat := 0
  /-- an upper word 0xF872 was the last subframe; 1; 13 R338; 0 -/
  pa : Bool := false
  burst : Bool := false
  /-- channel status in force of subframes 1 and 2; 192 each; 13 R336; 0 -/
  cs1 : Nat := 0
  cs2 : Nat := 0
  csOk : Bool := false
  /-- channel-status and user bits of both subframes, and their words, newest first, collected over the present block; 192 each; 13 R336, R339; 0 -/
  colC1 : Nat := 0
  colC2 : Nat := 0
  colU1 : Nat := 0
  colU2 : Nat := 0
  words : List (Nat × Nat) := []
  /-- frames concealed since the last clean period; 1; 13 Table 13.11; 0 -/
  concealing : Bool := false
  /-- RX_CNT CONCEAL, PAR; RX_ERR CS_ERR, RATE_CHG, UNDERRUN; 16, 16, 16, 8, 8; 13 Table 13.7; 0 -/
  conceal : Nat := 0
  par : Nat := 0
  csErr : Nat := 0
  rateChg : Nat := 0
  underrun : Nat := 0
  /-- subframes 1 and 2; as RxSt -/
  s1 : RxSt := {}
  s2 : RxSt := {}
  /-- disabled and fading out; 1; 13 R335; 0 -/
  closing : Bool := false
  /-- TX running, on fallback, RESYNC accepted; 1 each; 13 R340, R341; 0 -/
  txRun : Bool := false
  txFall : Bool := false
  txResync : Bool := false
  /-- when TX was enabled, the next preamble B in ticks, and the frame period of the block in ticks; 13 R340, R341; 0 -/
  txFrom : Nat := 0
  txNext : Rat := 0
  txPer : Rat := 0
  /-- frames of the block spaced by that period: those past a fallback follow at F_nom; 8; 13 R341; 192: none -/
  txCut : Nat := 192
  /-- TX_TS[n] and FINE; 68; 13 R326; 0 (Table 17.16) -/
  txTs : Nat := 0
  /-- the last block sent: words, V bits, channel status and user bits of both subframes; 13 R342, R343; none -/
  txOut : List Nat := []
  deriving DecidableEq, Repr

/-- The NVM (R371, R415, R429, R430). -/
structure Nvm where
  /-- slots A and B: generation and image of a complete write; GEN_A, GEN_B, CRC, LEN, A_OK, B_OK; 17 R429; DESIGN CHOICE none: a blank part [4] -/
  a : Option (Nat × Image) := none
  b : Option (Nat × Image) := none
  /-- WEAR of slots A and B; 16 each; 17 Table 17.19; DESIGN CHOICE 0 [4] -/
  wearA : Nat := 0
  wearB : Nat := 0
  /-- slot programmed by the write under way and its command's slot; 17 Table 17.20; none -/
  writing : Option (Nat × Nat) := none
  /-- the temperature gate has closed while the write runs; 1; 14 R360; 0 -/
  shut : Bool := false
  /-- a save runs; a save waits for a write; 1 each; 17 R430; 0 -/
  saving : Bool := false
  saveDue : Bool := false
  /-- SAVE_CNT REFUSED and DONE; 16 each; 17 R430; 0 (Table 17.19) -/
  refused : Nat := 0
  done : Nat := 0
  /-- SAVE_TS; 64; 17 R430; 0 (Table 17.19) -/
  saveTs : Nat := 0
  /-- save area: ageing by cell; estimates, trends and baselines by the key of Diag; 09 R250, 10 R263; DESIGN CHOICE empty [4] -/
  ages : Tbl Rat := []
  est : Tbl Nat := []
  trend : Tbl Nat := []
  base : Tbl Nat := []
  deriving DecidableEq, Repr

/-- A precharge under way (R114): its slot, cells selected, cells not yet done, start and timeout. -/
structure Pre where
  slot : Nat := 0
  cells : List Nat := []
  left : List Nat := []
  start : Nat := 0
  ms : Nat := 0
  deriving DecidableEq, Repr

/-- Everything of the device but SYSCNT and the completion ring. -/
structure Dev where
  /-- registers that software writes, by BAR0 address; 32 each; 17; unlisted = the reset value of chapter 17 -/
  regs : Tbl Word := []
  pages : Tbl Page := []
  viol : Viol := {}
  bus : Bus := {}
  boot : Boot := {}
  pwr : Pwr := {}
  hull : Hull := {}
  locus : Locus := {}
  therm : Therm := {}
  link : Tbl Link := []
  /-- FACET_x:LOST_MAP by page 0 to 4; 12 each; 03 R87; 0 (Table 17.8) -/
  lostMap : Tbl Nat := []
  chord : Tbl Chord := []
  /-- CMP_STAT by CHORD page 0 to 4: mismatches; DOMAIN counts by page; 16 each; 05 Table 5.5; 0 (Table 17.9) -/
  cmpStat : Tbl Nat := []
  cmpDom : Tbl Nat := []
  vcell : Tbl VCell := []
  vstr : Tbl VStr := []
  /-- VERTEX:STAT.RUNNING, and the index of the last block; 1; 06 R149; 0 -/
  vRun : Bool := false
  vBlk : Nat := 0
  /-- Vertex has latched its inputs since the stage became RUN; 1; 15 R392, 06 R148; 0 -/
  vLat : Bool := false
  lat : Lattice := {}
  model : Model := {}
  diag : Diag := {}
  prism : Prism := {}
  phasor : Phasor := {}
  wave : Wave := {}
  cap : Capture := {}
  port : Tbl Port := []
  /-- STREAM:HR_WR and HR_LOST; 24, 32; 13 R339; 0 (Table 17.16) -/
  hrWr : Nat := 0
  hrLost : Nat := 0
  nvm : Nvm := {}
  /-- precharges under way; 04 R114; none -/
  pre : List Pre := []
  /-- free-value counter (the model's own); Nat; -; DESIGN CHOICE 0 [5] -/
  free : Nat := 0
  deriving DecidableEq, Repr

/-- The state of the block: the commands that wait, the clock, the completion ring, the device. -/
structure State where
  pending : List Instr
  clk : Clock
  ring : Ring
  dev : Dev
  deriving DecidableEq, Repr

/-- Reasons a step can stop with a fault. No command of this block stops: the spec gives every row of its
table an effect, and where a row's own condition does not hold the state is left as it is. The type has
the one constructor the interface needs so that it is inhabited; nothing raises it (safe). -/
inductive Fault where
  /-- Raised by nothing (safe). -/
  | unreachable
  deriving DecidableEq, Repr

/-- Reasons a step can be refused. -/
inductive Refusal where
  /-- Raised by an arm of exec that has no meaning yet (safe: the run stops). -/
  | notModelled (mnemonic : String)
  deriving DecidableEq, Repr


/-- The machine right after reset: the power-on reset of PD0 has just been released (R31, R435). -/
def State.reset : State where
  pending := []
  clk := {}
  ring := {}
  dev := {}

end Sys2Proof.Machine
end

