-- ==== Sys2Proof/Machine/RegTable.lean ====
section
/-! DEFINITION. The register map (chapter 17) as a list of rows, each with its fields, their access codes
and allowed values, read from the field tables of the chapters that own them. -/

namespace Sys2Proof.Machine

/-- The access codes of Table 0.3, with the two combinations the map uses. -/
inductive Acc where
  | ro | rw | rws | rwx | rwxs | wo | wox | w1c
  deriving DecidableEq, Repr

/-- A field: its top and bottom bit, its access code, the ranges of raw values it accepts (none listed:
every value). -/
structure Fld where
  hi : Nat
  lo : Nat
  acc : Acc
  ok : List (Nat × Nat)
  deriving DecidableEq, Repr

/-- A register row: the pages that carry it, its first offset, first stride and count, second stride and
count, its fields (none: every field RO), its reset values by first index (the last one repeats). -/
structure Row where
  pages : List Nat
  off : Nat
  s1 : Nat
  n1 : Nat
  s2 : Nat
  n2 : Nat
  flds : List Fld
  rst : List Nat
  deriving DecidableEq, Repr

def fAny (hi lo : Nat) (a : Acc) : Fld := ⟨hi, lo, a, []⟩
def fIn (hi lo : Nat) (a : Acc) (x y : Nat) : Fld := ⟨hi, lo, a, [(x, y)]⟩
def fOf (hi lo : Nat) (a : Acc) (r : List (Nat × Nat)) : Fld := ⟨hi, lo, a, r⟩
/-- One register on one page. -/
def reg (page off rst : Nat) (fl : List Fld) : Row := ⟨[page], off, 0, 1, 0, 1, fl, [rst]⟩
/-- A register repeated with a stride on some pages. -/
def regs (pages : List Nat) (off s n rst : Nat) (fl : List Fld) : Row := ⟨pages, off, s, n, 0, 1, fl, [rst]⟩
/-- A read-only register. -/
def roReg (pages : List Nat) (off s n : Nat) : Row := ⟨pages, off, s, n, 0, 1, [], [0]⟩

/-- DEV, PWR, HULL and LOCUS (Tables 17.2 to 17.5 and their owners). -/
def rowsCore : List Row := [
  roReg [0] 0x020 0 1, roReg [0] 0x024 4 2,
  reg 0 0x030 0 [fAny 19 16 .rws, fAny 8 8 .rws, fAny 3 0 .rws],
  roReg [0] 0x034 0 1,
  regs [0] 0x040 4 4 0 [fAny 31 31 .wo, fAny 19 16 .rws, fAny 12 8 .rws, fAny 5 0 .rws],
  reg 0 0x060 0 [fAny 0 0 .rws],
  reg 0 0x064 0xE000 [fIn 15 0 .rws 1 0xFFFF],
  reg 0 0x068 0xD800D000 [fAny 31 16 .rws, fAny 15 0 .rws],
  reg 0 0x06C 0x320A [fIn 15 8 .rws 1 255, fIn 7 0 .rws 1 50],
  roReg [0] 0x070 4 2,
  reg 0 0x078 0 [fAny 15 0 .wo],
  roReg [0] 0x080 4 3,
  roReg [0] 0x400 4 2,
  reg 0 0x408 0 [fAny 31 0 .wox],
  reg 1 0x020 0x3FF [fAny 9 0 .rw],
  roReg [1] 0x024 4 2,
  reg 2 0x020 0x08480FFF [fAny 31 31 .rws, fAny 27 16 .rws, fAny 11 0 .rws],
  roReg [2] 0x024 0 1,
  reg 2 0x028 0 [fAny 11 0 .w1c],
  roReg [2] 0x02C 4 3, roReg [2] 0x040 4 4,
  reg 2 0x050 0 [fAny 9 8 .wo, fIn 7 0 .wo 0 51],
  reg 2 0x054 0 [fOf 7 0 .wo [(0, 51), (255, 255)]],
  reg 2 0x058 0 [fAny 1 1 .wo, fAny 0 0 .wo],
  roReg [2] 0x060 0 1,
  reg 2 0x064 0 [fAny 31 31 .rws, fOf 15 0 .rws [(0, 0), (10, 10000)]],
  reg 2 0x068 0 [fAny 0 0 .wo],
  reg 2 0x06C 0 [fIn 15 0 .wo 0xA5C3 0xA5C3],
  roReg [2] 0x070 4 2,
  reg 3 0x020 0 [fAny 3 3 .rw, fIn 2 0 .rw 0 4],
  roReg [3] 0x024 4 9,
  reg 3 0x048 0 [fOf 31 0 .rw [(0, 34359738), (0xFFFFFFFF - 34359737, 0xFFFFFFFF)]],
  reg 3 0x04C 0 [fAny 11 11 .ro, fAny 10 10 .ro, fAny 9 9 .rw, fAny 8 8 .rw, fAny 7 0 .rw],
  reg 3 0x050 0x000A2064 [fIn 31 16 .rw 1 65535, fIn 15 10 .rw 1 63, fIn 9 0 .rw 10 1000],
  reg 3 0x054 0xC8 [fIn 15 0 .rw 1 65535],
  roReg [3] 0x058 4 3,
  reg 3 0x064 0x7E8 [fIn 11 0 .rw 2000 2399],
  roReg [3] 0x068 4 2]

/-- HK and THERM (Tables 17.3, 17.6, 14.7, 14.8, 14.10, 14.11), HOST and CMD (Table 17.7), NVM
(Table 17.19). -/
def rowsTherm : List Row := [
  roReg [4] 0x020 4 3,
  reg 4 0x02C 0x7D0 [fIn 15 0 .rw 100 4000],
  roReg [4] 0x040 4 6,
  ⟨[4], 0x060, 4, 6, 0, 1, [fAny 31 16 .rw, fAny 15 0 .rw],
    [0x034802F8, 0x034802F8, 0x041A03B6, 0x076206AE, 0x04830415, 0x076206AE]⟩,
  reg 5 0x020 3 [fAny 1 1 .rws, fAny 0 0 .rws],
  roReg [5] 0x024 0 1,
  reg 5 0x028 0x0CCD04B0 [fIn 31 16 .rws 1 0x7FFF, fIn 15 0 .rws 60 65535],
  reg 5 0x02C 0x2000 [fIn 15 0 .rws 0 0x7FFF],
  reg 5 0x030 0x14100840 [fIn 31 24 .rws 2 255, fIn 23 16 .rws 2 255, fIn 15 8 .rws 1 255, fIn 7 0 .rws 1 255],
  reg 5 0x034 0x00A0000E [fIn 31 16 .rws 0 400, fIn 3 0 .rws 8 15],
  reg 5 0x038 0x100 [fIn 10 0 .rws 16 1024],
  roReg [5] 0x03C 4 2,
  reg 5 0x044 0 [fAny 8 6 .rw],
  reg 5 0x048 0x3C0 [fIn 11 0 .rw 800 1080],
  roReg [5] 0x050 4 3,
  ⟨[5], 0x060, 8, 8, 0, 1, [fIn 31 20 .rws 0 2000, fIn 19 8 .rws 1 2000, fAny 7 0 .rws],
    [0x3482F810, 0x2D028010, 0x2081E010, 0x39834810, 0x2D028010, 0x2081E010, 0x39834810, 0x00023010]⟩,
  ⟨[5], 0x064, 8, 8, 0, 1, [fAny 15 0 .rws], [40, 24, 16, 80, 24, 16, 80, 0]⟩,
  roReg [5] 0x0A0 4 16, roReg [5] 0x0E0 4 4,
  regs [5] 0x0F0 4 4 0 [fAny 7 4 .rws, fAny 0 0 .rws],
  roReg [5] 0x100 4 156, roReg [5] 0x370 4 13, roReg [5] 0x3B0 4 4,
  roReg [5] 0x400 4 156, roReg [5] 0x680 0 1, roReg [5] 0x700 4 156,
  roReg [5] 0x980 4 16, roReg [5] 0x9C0 4 4,
  roReg [8] 0x020 4 3, roReg [9] 0x020 4 3, roReg [9] 0x040 4 32,
  roReg [0x3C] 0x020 4 11]

/-- The FACET pages (Tables 17.8, 3.15 to 3.18, 4.13, 4.14). -/
def facetRows (pages : List Nat) (nk np : Nat) : List Row := [
  regs pages 0x020 0 1 0x408 [fIn 11 8 .rw 2 15, fIn 7 0 .rw 1 64],
  regs pages 0x024 0 1 0x101 [fIn 12 8 .rws 1 16, fIn 4 0 .rws 1 16],
  regs pages 0x028 0 1 0x820 [fIn 11 8 .rw 4 15, fIn 7 0 .rw 4 255],
  regs pages 0x02C 0 1 0 [fAny 11 0 .w1c],
  regs pages 0x040 0x20 nk 0 [fAny 0 0 .wo],
  ⟨pages, 0x044, 0x20, nk, 4, 7, [], [0]⟩,
  ⟨pages, 0x200, 0x10, nk, 4, 3, [], [0]⟩,
  regs pages 0x400 0x10 nk 0 [fOf 15 0 .rwx [(0, 2047), (0xF800, 0xFFFF)]],
  ⟨pages, 0x404, 0x10, nk, 4, 3, [], [0]⟩,
  ⟨pages, 0x800, 0x40, nk, 4, np, [fAny 26 16 .rwxs, fAny 10 0 .rwxs], [0]⟩,
  ⟨pages, 0xB00, 0x40, nk, 4, np, [], [0]⟩]

/-- The CHORD pages (Tables 17.9, 5.5 to 5.13). -/
def rowsChord : List Row :=
  let abcd := [0x18, 0x19, 0x1A, 0x1B]
  let all := [0x18, 0x19, 0x1A, 0x1B, 0x1C]
  [ regs all 0x020 0 1 0x3E80 [fIn 16 0 .rws 800 80000],
    regs all 0x024 0 1 0x01000C80 [fIn 31 16 .rw 1 0x7FFF, fIn 15 0 .rw 800 16000],
    regs all 0x028 0 1 0x00281900 [fIn 31 16 .rws 5 1000, fIn 15 0 .rws 1600 32000],
    regs all 0x02C 0 1 0x4E201F40 [fIn 31 16 .rw 1 65535, fIn 15 0 .rw 16 32000],
    regs abcd 0x030 0 1 0x7D716000 [fIn 31 16 .rw 0x4000 0x7FFF, fIn 15 0 .rw 1 0x7FFF],
    reg 0x1C 0x030 0x7D710000 [fIn 31 16 .rw 0x4000 0x7FFF],
    regs abcd 0x034 0 1 0xC80 [fIn 16 0 .rw 800 80000],
    regs abcd 0x038 0 1 0x30D40 [fIn 19 0 .rw 80000 800000],
    roReg all 0x03C 0 1,
    reg 0x18 0x060 0x186A0 [fIn 19 0 .rws 40000 1000000],
    regs [0x18] 0x064 4 4 0 [fAny 31 16 .rws, fAny 13 8 .rws, fAny 5 0 .rws],
    reg 0x1C 0x060 0x186A0 [fIn 19 0 .rws 40000 1000000],
    reg 0x1C 0x064 0 [fAny 31 16 .rws, fAny 11 8 .rws, fAny 5 0 .rws],
    regs [0x1C] 0x068 4 3 0 [fAny 11 8 .rws, fAny 5 0 .rws],
    ⟨abcd, 0x100, 0x20, 12, 4, 8, [], [0]⟩,
    ⟨[0x1C], 0x100, 0x20, 4, 4, 8, [], [0]⟩,
    regs abcd 0x400 4 12 0 [fIn 3 2 .rwx 0 2, fIn 1 0 .rwx 0 2],
    regs [0x1C] 0x400 4 4 0 [fIn 1 0 .rwx 0 2] ]

/-- VERTEX (Tables 17.10, 6.4). -/
def rowsVertex : List Row := [
  reg 0x1E 0x020 7 [fAny 2 0 .rws],
  roReg [0x1E] 0x024 0 1,
  reg 0x1E 0x028 0x20006000 [fIn 31 16 .rw 0 0x7FFF, fIn 15 0 .rw 1 0x7FFF],
  reg 0x1E 0x02C 0x00A00000 [fIn 31 16 .rw 1 1600, fIn 15 0 .rw 0 1599],
  reg 0x1E 0x030 0x37000007 [fIn 31 20 .rw 400 1000, fIn 3 0 .rw 4 14],
  reg 0x1E 0x034 0 [fAny 31 24 .rw, fAny 23 16 .rw, fAny 15 8 .rw],
  reg 0x1E 0x038 0x10000800 [fIn 31 16 .rw 0 0x7FFF, fIn 15 0 .rw 0 0x4000],
  reg 0x1E 0x03C 0x0A000040 [fIn 31 16 .rw 0x800 0x4000, fIn 15 0 .rw 1 0x800],
  reg 0x1E 0x040 0x08001000 [fIn 31 16 .rw 0 0x7FFF, fIn 15 0 .rw 0 0x4000],
  reg 0x1E 0x044 0x00280200 [fIn 31 16 .rw 1 400, fIn 15 0 .rw 1 65535],
  reg 0x1E 0x048 0xFF0 [fIn 15 0 .rw 1 65535],
  reg 0x1E 0x04C 0x148 [fIn 15 0 .rw 0 0x7FFF],
  reg 0x1E 0x050 0x28F [fIn 15 0 .rw 1 0x3FFF],
  regs [0x1E] 0x080 0x20 4 0x73337999 [fIn 31 16 .rws 1 0x7FFF, fIn 15 0 .rws 0x4000 0x7FFF],
  regs [0x1E] 0x084 0x20 4 0 [fAny 11 8 .rw, fAny 3 0 .rw],
  regs [0x1E] 0x088 0x20 4 0x0CCD0666 [fAny 31 16 .rw, fAny 15 0 .rw],
  regs [0x1E] 0x08C 0x20 4 0 [fAny 15 0 .rw],
  ⟨[0x1E], 0x090, 0x20, 4, 4, 4, [], [0]⟩,
  ⟨[0x1E], 0x100, 0x10, 48, 4, 4, [], [0]⟩,
  reg 0x1E 0x400 0 [fAny 0 0 .rwx]]

/-- LATTICE, CTX and LCODE (Tables 17.11, 17.12, 7.9 to 7.14, 8.9, 8.10). -/
def rowsLattice : List Row :=
  let ctx := [0x21, 0x22, 0x23]
  [ reg 0x20 0x020 0x1388 [fIn 15 0 .rws 2500 50000],
    reg 0x20 0x024 0xFA0 [fIn 15 0 .rws 3200 51100],
    reg 0x20 0x028 0x30 [fIn 6 0 .rw 16 64],
    roReg [0x20] 0x02C 4 9,
    reg 0x20 0x050 0 [fAny 31 1 .w1c],
    reg 0x20 0x054 0 [fAny 31 0 .w1c],
    roReg [0x20] 0x058 4 2,
    reg 0x20 0x060 0 [fAny 13 8 .rw, fAny 5 0 .rw],
    reg 0x20 0x064 0 [fAny 15 0 .rw],
    reg 0x20 0x068 0 [fAny 15 0 .rw],
    reg 0x20 0x06C 0 [fAny 18 16 .rw, fIn 15 12 .rw 0 4, fAny 11 0 .rw],
    reg 0x20 0x070 0x10624E [fIn 31 0 .rw 1 0x7FFFFFFF],
    reg 0x20 0x074 1 [fAny 31 31 .rw, fIn 30 0 .rw 1 0x7FFFFFFF],
    reg 0x20 0x078 0 [fAny 31 31 .rw, fAny 19 16 .rw, fAny 15 0 .rw],
    roReg [0x20] 0x07C 0 1,
    reg 0x20 0x400 0 [fAny 10 8 .rwx, fAny 6 4 .rwx, fAny 2 0 .rwx],
    roReg [0x20] 0x404 0 1,
    regs ctx 0x040 0x20 21 0 [fIn 6 4 .rw 0 3, fAny 0 0 .rw],
    regs ctx 0x044 0x20 21 0x20000000 [fAny 31 30 .rws, fIn 29 28 .rws 0 2, fAny 26 24 .rws, fAny 19 16 .rws,
      fAny 15 15 .rwxs, fIn 13 8 .rws 0 9, fAny 7 7 .rws, fIn 6 4 .rws 0 6],
    ⟨ctx, 0x048, 0x20, 21, 4, 4, [fAny 31 16 .rws, fAny 15 0 .rws], [0]⟩,
    ⟨ctx, 0x058, 0x20, 21, 4, 2, [], [0]⟩,
    regs ctx 0x400 0x10 21 0 [fAny 13 0 .rwxs],
    regs ctx 0x404 0x10 21 0 [fAny 0 0 .rwxs],
    ⟨ctx, 0x408, 0x10, 21, 4, 2, [], [0]⟩,
    reg 0x24 0x020 0 [fAny 13 0 .rwx],
    reg 0x24 0x024 0 [fAny 31 0 .rwx],
    roReg [0x24] 0x028 0 1 ]

/-- PRISM, PRESP, PHASOR and WAVE (Tables 17.13, 17.14, 11.8 to 11.13, 12.12, 12.14). -/
def rowsMeas : List Row := [
  reg 0x28 0x020 0x28 [fIn 17 16 .rws 0 2, fAny 8 8 .rws, fIn 6 0 .rws 40 100],
  roReg [0x28] 0x024 0 1,
  reg 0x28 0x028 0 [fAny 1 1 .rw, fAny 0 0 .rw],
  roReg [0x28] 0x02C 4 2,
  regs [0x28] 0x100 0x20 16 0 [fAny 0 0 .rw],
  regs [0x28] 0x104 0x20 16 0x20008 [fAny 20 20 .rws, fIn 18 16 .rws 0 5, fAny 3 0 .rws],
  regs [0x28] 0x108 0x20 16 0 [fAny 9 0 .rws],
  ⟨[0x28], 0x10C, 0x20, 16, 4, 5, [], [0]⟩,
  regs [0x28] 0x300 0x10 16 0 [fAny 31 16 .rw, fIn 15 14 .rw 0 2, fAny 13 0 .rw],
  regs [0x28] 0x304 0x10 16 0 [fAny 31 16 .rw, fIn 15 14 .rw 0 2, fAny 13 0 .rw],
  regs [0x28] 0x308 0x10 16 0 [fAny 31 16 .rw, fAny 15 14 .rw, fAny 13 0 .rw],
  regs [0x28] 0x30C 0x10 16 0x01010101 [fIn 31 24 .rw 1 255, fIn 23 16 .rw 1 255, fIn 15 8 .rw 1 255, fIn 7 0 .rw 1 255],
  reg 0x29 0x020 0 [fAny 3 0 .rw],
  roReg [0x29] 0x024 4 2,
  ⟨[0x29], 0x040, 0x10, 8, 4, 3, [], [0]⟩,
  reg 0x29 0x100 0 [fAny 20 20 .rw, fAny 19 16 .rw, fAny 8 0 .rw],
  roReg [0x29] 0x104 0 1,
  reg 0x2A 0x020 0x600 [fIn 11 8 .rws 0 0xB, fAny 2 2 .rws, fAny 1 1 .rws, fAny 0 0 .rw],
  roReg [0x2A] 0x024 0 1,
  reg 0x2A 0x028 0x10 [fAny 4 4 .rws, fAny 3 0 .rws],
  roReg [0x2A] 0x030 4 2,
  reg 0x2A 0x038 0 [fAny 0 0 .wo],
  regs [0x2A] 0x040 4 16 0 [fAny 31 31 .rws, fAny 27 24 .rws, fAny 15 0 .rws],
  regs [0x2A] 0x080 4 4 0 [fAny 31 31 .rws, fAny 11 8 .rws, fAny 7 4 .rws, fAny 3 0 .rws],
  roReg [0x2A] 0x100 4 5, roReg [0x2A] 0x140 4 32, roReg [0x2A] 0x1C0 4 8,
  reg 0x2B 0x020 0 [fAny 0 0 .rw],
  roReg [0x2B] 0x024 0 1,
  reg 0x2B 0x028 0 [fAny 15 0 .rws],
  reg 0x2B 0x02C 0 [fAny 15 0 .rws],
  roReg [0x2B] 0x030 4 3,
  reg 0x2B 0x03C 0 [fAny 0 0 .wo],
  roReg [0x2B] 0x040 0 1,
  regs [0x2B] 0x100 4 16 0x08000001 [fIn 31 16 .rws 1 0x7FFF, fIn 15 14 .rws 0 2, fAny 3 0 .rws],
  regs [0x2B] 0x140 4 16 0x186A [fIn 15 0 .rws 1 65535]]

/-- CAPTURE (Tables 17.15, 12.15). -/
def rowsCapture : List Row := [
  reg 0x2C 0x020 0 [fAny 0 0 .rw],
  roReg [0x2C] 0x024 0 1,
  reg 0x2C 0x028 0 [fAny 0 0 .wo],
  reg 0x2C 0x02C 0 [fAny 1 1 .rw, fAny 0 0 .rw],
  reg 0x2C 0x030 0x000A0000 [fIn 31 16 .rw 1 65535, fAny 7 0 .rw],
  reg 0x2C 0x034 0 [fAny 0 0 .rw],
  reg 0x2C 0x038 0xFFFFFFFF [fAny 31 16 .rw, fAny 15 0 .rw],
  ⟨[0x2C], 0x040, 8, 5, 0, 1, [fAny 31 31 .rws, fAny 14 8 .rws, fIn 7 0 .rws 1 128],
    [0x80000030, 0x80003040, 0x80007008, 0x80007804, 0x80007C04]⟩,
  roReg [0x2C] 0x044 8 5,
  reg 0x2C 0x070 0x07D01770 [fIn 31 16 .rws 1 65535, fIn 15 0 .rws 1 65535],
  reg 0x2C 0x074 0x11 [fAny 7 0 .rw],
  reg 0x2C 0x078 0x06400C80 [fIn 31 16 .rws 1 65535, fIn 15 0 .rws 1 65535],
  reg 0x2C 0x07C 0xFF [fAny 7 0 .rw],
  reg 0x2C 0x080 0x04000060 [fIn 31 24 .rws 1 255, fIn 6 0 .rws 1 96],
  reg 0x2C 0x084 0x03E803E8 [fIn 31 16 .rws 1 65535, fIn 15 0 .rws 1 65535],
  reg 0x2C 0x088 0xFF [fAny 7 0 .rw],
  reg 0x2C 0x08C 0x10 [fIn 5 0 .rws 2 64],
  roReg [0x2C] 0x090 4 11,
  reg 0x2C 0x0BC 0 [fAny 31 0 .wo],
  regs [0x2C] 0x100 4 48 0 [fAny 31 16 .rws, fAny 15 0 .rws],
  roReg [0x2C] 0x400 0 1]

/-- STREAM (Tables 17.16, 13.7, 13.8, 13.10). -/
def rowsStream : List Row := [
  reg 0x30 0x020 0 [fAny 31 0 .rw], reg 0x30 0x024 0 [fAny 31 0 .rw],
  reg 0x30 0x028 0 [fOf 23 0 .rw [(0, 0), (4096, 16777200)]],
  roReg [0x30] 0x02C 0 1,
  reg 0x30 0x030 0 [fAny 23 0 .rw],
  roReg [0x30] 0x034 4 2,
  regs [0x30] 0x100 0x40 8 0 [fIn 11 8 .rws 0 9, fAny 2 2 .rws, fAny 1 1 .rws, fAny 0 0 .rw],
  regs [0x30] 0x104 0x40 8 0x9C40 [fIn 19 0 .rws 0 1000000],
  ⟨[0x30], 0x108, 0x40, 8, 4, 6, [], [0]⟩,
  regs [0x30] 0x120 0x40 8 0x30000 [fIn 19 16 .rws 1 9, fIn 13 12 .rws 0 2, fAny 9 9 .rws, fAny 8 8 .rws,
    fAny 6 4 .rws, fAny 0 0 .rw],
  regs [0x30] 0x124 0x40 8 0 [fAny 11 8 .rws, fAny 3 0 .rws],
  ⟨[0x30], 0x128, 0x40, 8, 4, 3, [], [0]⟩,
  regs [0x30] 0x134 0x40 8 0 [fAny 0 0 .wo]]

/-- MODEL (Tables 17.17, 9.3, 9.4). -/
def rowsModel : List Row := [
  reg 0x34 0x020 7 [fAny 2 0 .rws],
  roReg [0x34] 0x024 0 1,
  reg 0x34 0x028 0x0CCD0E10 [fIn 31 16 .rws 1 0x7FFF, fIn 15 0 .rws 60 65535],
  reg 0x34 0x02C 0x2000 [fIn 15 0 .rws 0 0x7FFF],
  reg 0x34 0x030 0x0FA003E8 [fIn 31 16 .rws 1 65535, fIn 15 0 .rws 1 65535],
  reg 0x34 0x034 0x03200190 [fIn 31 16 .rws 1 65535, fIn 15 0 .rws 1 65535],
  reg 0x34 0x038 0x400003E8 [fIn 31 16 .rws 1 0x7FFF, fIn 15 0 .rws 1 65535],
  reg 0x34 0x03C 0x18004000 [fIn 31 16 .rws 0x1001 0x4000, fIn 15 0 .rws 1 0x7FFF],
  reg 0x34 0x040 0x08000400 [fAny 31 16 .rws, fIn 15 0 .rws 0 0x4000],
  reg 0x34 0x044 4 [fIn 15 0 .rws 1 0x7FFF],
  reg 0x34 0x048 0x00C80064 [fIn 31 16 .rws 1 65535, fIn 15 0 .rws 1 65535],
  reg 0x34 0x04C 0x01F40258 [fIn 31 16 .rws 1 65535, fIn 15 0 .rws 1 65535],
  reg 0x34 0x050 0x2302A800 [fAny 31 20 .rws, fIn 19 8 .rws 0 2000],
  reg 0x34 0x054 0x03E84657 [fIn 31 16 .rws 1 65535, fIn 15 8 .rws 0 150, fIn 7 4 .rws 1 15, fAny 3 0 .rws],
  reg 0x34 0x058 0xCCCD0BB8 [fIn 31 16 .rws 1 0xFFFF, fIn 15 0 .rws 1 65535],
  reg 0x34 0x05C 0 [fIn 31 16 .rws 0 0x7FFF, fAny 0 0 .rws],
  regs [0x34] 0x060 8 4 0 [fIn 10 8 .rws 0 4, fAny 4 4 .rws, fAny 1 0 .rws],
  roReg [0x34] 0x064 8 4,
  regs [0x34] 0x080 0x20 4 0 [fIn 23 0 .rws 1 16777215],
  regs [0x34] 0x084 0x20 4 0 [fAny 31 16 .rws, fIn 15 0 .rws 1 65535],
  regs [0x34] 0x088 0x20 4 0 [fIn 31 16 .rws 1 65535, fIn 15 0 .rws 1 65535],
  regs [0x34] 0x08C 0x20 4 0 [fIn 31 16 .rws 1 65535, fIn 15 0 .rws 1 65535],
  regs [0x34] 0x090 0x20 4 0 [fAny 31 20 .rws, fIn 19 8 .rws 0 2000, fAny 7 0 .rws],
  regs [0x34] 0x094 0x20 4 0 [fIn 31 16 .rws 1 65535, fIn 15 0 .rws 1 0xFFFF],
  regs [0x34] 0x100 0x10 48 0 [fIn 14 12 .rws 0 4, fAny 9 8 .rws, fAny 1 0 .rws],
  ⟨[0x34], 0x104, 0x10, 48, 4, 3, [], [0]⟩,
  roReg [0x34] 0x400 0x10 48,
  regs [0x34] 0x404 0x10 48 0 [fAny 31 0 .rwxs],
  ⟨[0x34], 0x408, 0x10, 48, 4, 2, [], [0]⟩,
  roReg [0x34] 0x700 4 4]

/-- DIAG (Tables 17.18, 10.8). -/
def rowsDiag : List Row := [
  reg 0x35 0x020 0x532 [fAny 16 16 .rws, fIn 10 8 .rws 1 7, fIn 7 0 .rws 1 255],
  reg 0x35 0x024 0x138802EE [fIn 31 16 .rws 1 8191, fIn 15 0 .rws 1 8191],
  reg 0x35 0x028 0x012C004B [fAny 31 16 .rws, fAny 15 0 .rws],
  reg 0x35 0x02C 0x00320032 [fAny 31 16 .rws, fAny 15 0 .rws],
  reg 0x35 0x030 0xA [fIn 15 0 .rws 1 1000],
  roReg [0x35] 0x034 4 3,
  reg 0x35 0x040 0 [fIn 13 8 .rw 0 51, fIn 3 0 .rw 0 10],
  roReg [0x35] 0x044 0 1,
  reg 0x35 0x060 4 [fAny 8 8 .rws, fIn 3 0 .rws 1 12],
  reg 0x35 0x064 0x00800400 [fIn 31 16 .rws 0x10 0xFFFF, fIn 15 0 .rws 1 0x1000],
  reg 0x35 0x068 0x00C80000 [fIn 31 16 .rws 1 65535],
  reg 0x35 0x06C 0x10 [fAny 7 4 .rws, fAny 3 0 .rws],
  reg 0x35 0x070 0x0FA003E8 [fIn 31 16 .rws 1 65535, fIn 15 0 .rws 1 65535],
  reg 0x35 0x074 0x0A32050A [fIn 31 24 .rws 1 100, fIn 23 16 .rws 1 100, fIn 15 8 .rws 1 100, fIn 7 0 .rws 1 100],
  roReg [0x35] 0x078 4 4, roReg [0x35] 0x0A0 4 52,
  roReg [0x35] 0x180 4 48, roReg [0x35] 0x240 4 48, roReg [0x35] 0x300 4 48, roReg [0x35] 0x3C0 4 4,
  regs [0x35] 0x400 4 48 0 [fAny 15 0 .rwxs],
  regs [0x35] 0x4C0 4 48 0 [fAny 15 0 .rwxs],
  regs [0x35] 0x580 4 48 0 [fAny 15 0 .rwxs],
  regs [0x35] 0x640 4 4 0 [fAny 15 0 .rwxs]]

/-- Every register row of BAR0 but the common registers of Table 16.1. -/
def regRows : List Row :=
  rowsCore ++ rowsTherm ++ facetRows [0x10, 0x11, 0x12, 0x13] 12 12 ++ facetRows [0x14] 4 2 ++
  rowsChord ++ rowsVertex ++ rowsLattice ++ rowsMeas ++ rowsCapture ++ rowsStream ++ rowsModel ++ rowsDiag

/-- The page, first offset and both indices of the register at an offset of a page. -/
structure Hit where
  row : Row
  page : Nat
  i : Nat
  j : Nat
  deriving DecidableEq, Repr

/-- Whether a row holds a register at an offset, and at which indices. -/
def Row.at? (r : Row) (page off : Nat) : Option Hit :=
  if !r.pages.contains page || off < r.off then none
  else
    let d := off - r.off
    let i := if r.s1 = 0 then 0 else d / r.s1
    let e := if r.s1 = 0 then d else d % r.s1
    let j := if r.s2 = 0 then 0 else e / r.s2
    let e' := if r.s2 = 0 then e else e % r.s2
    if i < r.n1 && j < r.n2 && e' = 0 then some ⟨r, page, i, j⟩ else none

/-- The register at an offset of a page, if there is one (R423). -/
def findReg (page off : Nat) : Option Hit := regRows.findSome? (fun r => r.at? page off)

/-- The reset value of a register. -/
def Hit.rst (h : Hit) : Nat := (h.row.rst[h.i]?).getD (h.row.rst.getLast?.getD 0)

/-- The reset value of the register at a BAR0 address. -/
def rstAt (addr : Nat) : Nat :=
  match findReg (addr / 4096) (addr % 4096) with
  | some h => h.rst
  | none => 0

/-- The power domain of a page, if the page is implemented (Table 17.1). -/
def pageDomain (page : Nat) : Option Nat :=
  if page ≤ 5 then some 0
  else if page = 8 || page = 9 then some 1
  else if 0x10 ≤ page && page ≤ 0x14 then some 0
  else if page = 0x18 || page = 0x19 || page = 0x1E then some 3
  else if 0x1A ≤ page && page ≤ 0x1C then some 4
  else if 0x20 ≤ page && page ≤ 0x24 then some 2
  else if 0x28 ≤ page && page ≤ 0x2A then some 5
  else if page = 0x2B then some 6
  else if page = 0x2C then some 7
  else if page = 0x30 then some 8
  else if page = 0x34 || page = 0x35 || page = 0x3C then some 9
  else none

/-- The bits of a page's EVT_RAW that its chapter assigns (R424). -/
def evtBits (page : Nat) : Nat :=
  if page = 0 then 0x3F03 else if page = 1 then 0x3 else if page = 2 then 0xFFFF
  else if page = 3 then 0x1FF else if page = 4 then 0xF else if page = 5 then 0x7F
  else if page = 8 then 0x7 else if page = 9 then 0x3
  else if 0x10 ≤ page && page ≤ 0x14 then 0xFF
  else if 0x18 ≤ page && page ≤ 0x1C then 0x1FF
  else if page = 0x1E then 0xFF else if page = 0x20 then 0x3F
  else if 0x21 ≤ page && page ≤ 0x23 then 0x1FFFFF
  else if page = 0x28 then 0x7F else if page = 0x2A then 0xF else if page = 0x2B then 0x7
  else if page = 0x2C then 0x3F else if page = 0x30 then 0x1FF else if page = 0x34 then 0xFF
  else if page = 0x35 then 0xF else if page = 0x3C then 0x7 else 0

end Sys2Proof.Machine
end

