-- ==== Sys2Proof/Machine/Ops.lean ====
section
/-! DEFINITION. Shared operations: sparse tables, bit fields, two's complement, saturation, and access to the
parts of the state. -/

namespace Sys2Proof.Machine

/-- What a table holds at a key: the default where nothing is listed. -/
def tget {α : Type} (dflt : α) : Tbl α → Nat → α
  | [], _ => dflt
  | (k', v) :: r, k => if k' = k then v else tget dflt r k

/-- Writes a table entry, keeping the keys strictly rising and no entry equal to the default. -/
def tset {α : Type} [DecidableEq α] (dflt : α) (m : Tbl α) (k : Nat) (v : α) : Tbl α :=
  m.filter (fun p => decide (p.1 < k)) ++ (if v = dflt then [] else [(k, v)]) ++
    m.filter (fun p => decide (k < p.1))

/-- Applies a function to a table entry. -/
def tupd {α : Type} [DecidableEq α] (dflt : α) (m : Tbl α) (k : Nat) (f : α → α) : Tbl α :=
  tset dflt m k (f (tget dflt m k))

/-- The canonical form of a table. -/
def twf {α : Type} (dflt : α) (m : Tbl α) : Prop :=
  m.Pairwise (fun a b => a.1 < b.1) ∧ ∀ p ∈ m, p.2 ≠ dflt

/-- Field [hi:lo] of a word held as a number. -/
def bits (w hi lo : Nat) : Nat := w / 2 ^ lo % 2 ^ (hi + 1 - lo)
/-- Bit n of a word held as a number. -/
def bit (w n : Nat) : Bool := w / 2 ^ n % 2 == 1
/-- 1 or 0. -/
def b2n (b : Bool) : Nat := if b then 1 else 0
/-- Sets or clears bit n. -/
def setBit (w n : Nat) (b : Bool) : Nat := if bit w n = b then w else if b then w + 2 ^ n else w - 2 ^ n
/-- The signed value of the low n bits. -/
def sx (n v : Nat) : Int :=
  let u := v % 2 ^ n
  if u < 2 ^ (n - 1) then (u : Int) else (u : Int) - (2 ^ n : Nat)
/-- The n-bit two's complement code of an integer. -/
def ux (n : Nat) (v : Int) : Nat := (v % ((2 ^ n : Nat) : Int)).toNat
/-- Replaces field [hi:lo] of a word. -/
def putBits (w hi lo v : Nat) : Nat :=
  w % 2 ^ lo + v % 2 ^ (hi + 1 - lo) * 2 ^ lo + w / 2 ^ (hi + 1) * 2 ^ (hi + 1)
/-- The bits set in a word below n, ascending. -/
def onBits (n w : Nat) : List Nat := (List.range n).filter (fun i => bit w i)
/-- A word with the given bits set. -/
def ofBits (l : List Nat) : Nat := l.foldl (fun a i => setBit a i true) 0
/-- Adds 1 to a counter of n bits that saturates (R426). -/
def sat1 (n v : Nat) : Nat := if v + 1 < 2 ^ n then v + 1 else 2 ^ n - 1
/-- Adds m to a counter of n bits that saturates (R426). -/
def satN (n v m : Nat) : Nat := min (v + m) (2 ^ n - 1)
/-- Clamps an integer. -/
def clampI (lo hi v : Int) : Int := if v < lo then lo else if hi < v then hi else v
/-- Clamps a real. -/
def clampR (lo hi v : Rat) : Rat := if v < lo then lo else if hi < v then hi else v
/-- Saturation to n signed bits. -/
def satI (n : Nat) (v : Int) : Int := clampI (-((2 ^ (n - 1) : Nat) : Int)) ((2 ^ (n - 1) : Nat) - 1) v
/-- Rounding of a real to the nearest integer, halves up. -/
def rnd (x : Rat) : Int := (x + 1 / 2).floor
/-- Rounding to the nearest integer, halves away from zero. -/
def rndAway (x : Rat) : Int := if x < 0 then -((-x + 1 / 2).floor) else (x + 1 / 2).floor
/-- Rounding to the nearest integer, halves to even. -/
def rndEven (x : Rat) : Int :=
  let f := x.floor
  let r := x - f
  if r < 1 / 2 then f else if 1 / 2 < r then f + 1 else if f % 2 = 0 then f else f + 1
/-- The elements of a list at most n. -/
def listGet (l : List Int) (i : Nat) : Int := l.getD i 0
/-- Sum of a list of reals. -/
def sumR (l : List Rat) : Rat := l.foldl (· + ·) 0
/-- Sum of a list of naturals. -/
def sumN (l : List Nat) : Nat := l.foldl (· + ·) 0
/-- The largest of a list of integers, or a default. -/
def maxI (d : Int) (l : List Int) : Int := l.foldl max (l.headD d)
/-- The smallest of a list of integers, or a default. -/
def minI (d : Int) (l : List Int) : Int := l.foldl min (l.headD d)

/-- The 32-bit word of a number. -/
def w32 (v : Nat) : Word := BitVec.ofNat 32 v
/-- Low and high word of a 64-bit quantity. -/
def lo32 (v : Nat) : Nat := v % 2 ^ 32
def hi32 (v : Nat) : Nat := v / 2 ^ 32 % 2 ^ 32

/-- One bit through a left-shifting CRC register of n bits. -/
def crcBit (n poly : Nat) (r : Nat) (b : Bool) : Nat :=
  let top := bit r (n - 1) != b
  let s := r * 2 % 2 ^ n
  if top then s ^^^ poly else s
/-- A CRC over the low k bits of a value, bit 0 first. -/
def crcLsb (n poly init v k : Nat) : Nat := (List.range k).foldl (fun r i => crcBit n poly r (bit v i)) init
/-- A CRC over the low k bits of a value, most significant bit first. -/
def crcMsb (n poly init v k : Nat) : Nat := (List.range k).foldl (fun r i => crcBit n poly r (bit v (k - 1 - i))) init
/-- CRC-16 of a block status in transmission order (R75). -/
def crc16 (v : Nat) : Nat := crcLsb 16 0x1021 0xFFFF v 176
/-- CRC-8 of a management message (R78). -/
def crc8 (msg : Nat) : Nat := crcMsb 8 0x07 0 (msg / 256) 40
/-- One byte through the reflected CRC-32 register (R100). -/
def crc32Byte (r b : Nat) : Nat :=
  (List.range 8).foldl (fun r _ => if bit r 0 then (r / 2) ^^^ 0xEDB88320 else r / 2) (r ^^^ b)
/-- CRC-32 with the IEEE 802.3 polynomial, reflected (R100). -/
def crc32 (bytes : List Nat) : Nat := (bytes.foldl crc32Byte 0xFFFFFFFF) ^^^ 0xFFFFFFFF

/-- Ones among the low n bits. -/
def ones (n v : Nat) : Nat := (onBits n v).length

/-- The value of bytes, least significant first. -/
def fromLE (l : List Nat) : Nat := l.foldr (fun b a => b + 256 * a) 0
/-- The n low bytes of a value, least significant first. -/
def bytesLE (n v : Nat) : List Nat := (List.range n).map (fun i => v / 256 ^ i % 256)
/-- SYSCNT as a number. -/
def State.now (s : State) : Nat := s.clk.cnt.toNat

/-- A command whose whole effect is on the device; it completes. -/
def onDev (s : State) (f : Nat → Dev → Dev) : Host.Outcome State Fault Refusal :=
  .next { s with dev := f s.now s.dev }

namespace Dev

/-- The raw contents of a register that holds a written value. -/
def rd (d : Dev) (page off : Nat) : Nat :=
  let a := page * 4096 + off
  (tget (w32 (rstAt a)) d.regs a).toNat
/-- Field [hi:lo] of a register. -/
def fld (d : Dev) (page off hi lo : Nat) : Nat := bits (d.rd page off) hi lo
/-- Bit n of a register. -/
def flag (d : Dev) (page off n : Nat) : Bool := bit (d.rd page off) n
/-- Places a value in a register, without any check. -/
def wr (d : Dev) (page off v : Nat) : Dev :=
  let a := page * 4096 + off
  { d with regs := tset (w32 (rstAt a)) d.regs a (w32 v) }
/-- Places a value in a field of a register, without any check. -/
def wrFld (d : Dev) (page off hi lo v : Nat) : Dev := d.wr page off (putBits (d.rd page off) hi lo v)

def pg (d : Dev) (p : Nat) : Page := tget {} d.pages p
def updPage (d : Dev) (p : Nat) (f : Page → Page) : Dev := { d with pages := tupd {} d.pages p f }
def lk (d : Dev) (k : Nat) : Link := tget {} d.link k
def updLink (d : Dev) (k : Nat) (f : Link → Link) : Dev := { d with link := tupd {} d.link k f }
def ch (d : Dev) (u : Nat) : Chord := tget {} d.chord u
def updChord (d : Dev) (u : Nat) (f : Chord → Chord) : Dev := { d with chord := tupd {} d.chord u f }
def vc (d : Dev) (k : Nat) : VCell := tget {} d.vcell k
def updCell (d : Dev) (k : Nat) (f : VCell → VCell) : Dev := { d with vcell := tupd {} d.vcell k f }
def vs (d : Dev) (s : Nat) : VStr := tget {} d.vstr s
def updStr (d : Dev) (s : Nat) (f : VStr → VStr) : Dev := { d with vstr := tupd {} d.vstr s f }
def cx (d : Dev) (c : Nat) : Ctx := tget {} d.lat.ctx c
def updCtx (d : Dev) (c : Nat) (f : Ctx → Ctx) : Dev :=
  { d with lat := { d.lat with ctx := tupd {} d.lat.ctx c f } }
def elem (d : Dev) (c e : Nat) : Elem := tget {} (d.cx c).el e
def updElem (d : Dev) (c e : Nat) (f : Elem → Elem) : Dev :=
  d.updCtx c (fun x => { x with el := tupd {} x.el e f })
def mc (d : Dev) (k : Nat) : MCell := tget {} d.model.cell k
def updModel (d : Dev) (k : Nat) (f : MCell → MCell) : Dev :=
  { d with model := { d.model with cell := tupd {} d.model.cell k f } }
def ind (d : Dev) (s : Nat) : Coil := tget {} d.model.ind s
def chan (d : Dev) (k : Nat) : Chan := tget {} d.prism.chan k
def updChan (d : Dev) (k : Nat) (f : Chan → Chan) : Dev :=
  { d with prism := { d.prism with chan := tupd {} d.prism.chan k f } }
def port! (d : Dev) (n : Nat) : Port := tget {} d.port n
def updPort (d : Dev) (n : Nat) (f : Port → Port) : Dev := { d with port := tupd {} d.port n f }
def sensor (d : Dev) (i : Nat) : Sensor := tget {} d.therm.sens i
def updSensor (d : Dev) (i : Nat) (f : Sensor → Sensor) : Dev :=
  { d with therm := { d.therm with sens := tupd {} d.therm.sens i f } }
def slot (d : Dev) (n : Nat) : Option Slot := tget none d.bus.slots n
def updSlot (d : Dev) (n : Nat) (f : Slot → Slot) : Dev :=
  { d with bus := { d.bus with slots := tupd none d.bus.slots n (fun o => o.map f) } }
def holdOf (d : Dev) (u : Nat) : Hold := tget Hold.none d.hull.hold u

def modHull (d : Dev) (f : Hull → Hull) : Dev := { d with hull := f d.hull }
def modBoot (d : Dev) (f : Boot → Boot) : Dev := { d with boot := f d.boot }
def modBus (d : Dev) (f : Bus → Bus) : Dev := { d with bus := f d.bus }
def modLocus (d : Dev) (f : Locus → Locus) : Dev := { d with locus := f d.locus }
def modTherm (d : Dev) (f : Therm → Therm) : Dev := { d with therm := f d.therm }
def modLat (d : Dev) (f : Lattice → Lattice) : Dev := { d with lat := f d.lat }
def modCap (d : Dev) (f : Capture → Capture) : Dev := { d with cap := f d.cap }
def modNvm (d : Dev) (f : Nvm → Nvm) : Dev := { d with nvm := f d.nvm }
def modDiag (d : Dev) (f : Diag → Diag) : Dev := { d with diag := f d.diag }
def modPrism (d : Dev) (f : Prism → Prism) : Dev := { d with prism := f d.prism }
def modPhasor (d : Dev) (f : Phasor → Phasor) : Dev := { d with phasor := f d.phasor }
def modWave (d : Dev) (f : Wave → Wave) : Dev := { d with wave := f d.wave }
def modMod (d : Dev) (f : Model → Model) : Dev := { d with model := f d.model }
def modPwr (d : Dev) (f : Pwr → Pwr) : Dev := { d with pwr := f d.pwr }

/-- Draws the index of a fresh free value. -/
def drawFree (d : Dev) : Nat × Dev := (d.free, { d with free := d.free + 1 })

/-- A domain is on (R362). -/
def domOn (d : Dev) (pd : Nat) : Bool := bit d.pwr.on pd
/-- A page's domain is on and the page is implemented. -/
def pageOn (d : Dev) (p : Nat) : Bool :=
  match pageDomain p with
  | some pd => d.domOn pd
  | none => false
/-- Applies a function over a list of indices, left to right. -/
def each (d : Dev) (l : List Nat) (f : Dev → Nat → Dev) : Dev := l.foldl f d
/-- Applies a function where a condition holds. -/
def when (d : Dev) (c : Bool) (f : Dev → Dev) : Dev := if c then f d else d

end Dev

end Sys2Proof.Machine
end

