-- ==== Sys2Proof/Machine/Operands.lean ====
section
/-! DEFINITION. What the configuration registers say: units, strings, legs, contexts and stages, each read
from the registers that hold it. -/

namespace Sys2Proof.Machine

/-- One Facet block in ns: 384 subframes of 640 ns (R57, R60). -/
def blockNs : Nat := 245760
def subNs : Nat := 640
/-- The start of Facet block n (R57). -/
def blockAt (n : Nat) : Nat := n * blockNs

/-- The page of a link (R92). -/
def facetPage (u : Nat) : Nat := if u < 48 then 0x10 + u / 12 else 0x14
/-- The page of a unit's modulator (R146). -/
def chordPage (u : Nat) : Nat := if u < 48 then 0x18 + u / 12 else 0x1C
/-- The index of a link or unit within its page (R92, R146). -/
def unitIdx (u : Nat) : Nat := if u < 48 then u % 12 else u - 48
/-- The unit at an index of a FACET or CHORD page. -/
def unitAt (page k : Nat) : Nat :=
  if page = 0x14 || page = 0x1C then 48 + k
  else if page < 0x18 then (page - 0x10) * 12 + k else (page - 0x18) * 12 + k
/-- The domain that modulates a unit. -/
def unitDomain (u : Nat) : Nat := if u < 24 then 3 else 4
def isLeg (u : Nat) : Bool := decide (48 ≤ u)
def allUnits : List Nat := List.range 52
/-- The page and index of a context (Table 17.12). -/
def ctxPage (c : Nat) : Nat := 0x21 + (c - 1) / 21
def ctxIdx (c : Nat) : Nat := (c - 1) % 21

/-- The rank of a stage (R368). -/
def Stage.rank : Stage → Nat
  | .reset => 0
  | .safe => 1
  | .cooldown => 2
  | .halt => 2
  | .aware => 3
  | .ready => 4
  | .run => 5
/-- The code of a stage (Table 15.1). -/
def Stage.code : Stage → Nat
  | .reset => 0
  | .safe => 1
  | .aware => 2
  | .ready => 3
  | .run => 4
  | .cooldown => 5
  | .halt => 6
/-- The code of a hold (R375). -/
def Hold.code : Hold → Nat
  | .none => 0
  | .off => 1
  | .zero => 2
  | .bypass => 3
/-- The hold of a code. -/
def Hold.ofCode (n : Nat) : Hold := if n = 1 then .off else if n = 2 then .zero else if n = 3 then .bypass else .none
/-- The severity of a hold (R29). -/
def Hold.rank : Hold → Nat
  | .none => 0
  | .zero => 1
  | .off => 2
  | .bypass => 3

namespace Dev

def stage (d : Dev) : Stage := d.boot.stage
/-- DEV:STAGE is below RUN (R368). -/
def belowRun (d : Dev) : Bool := d.boot.stage != .run
/-- DEV:STAGE is READY or RUN. -/
def readyRun (d : Dev) : Bool := d.boot.stage == .ready || d.boot.stage == .run
/-- DEV:STAGE is AWARE, READY or RUN. -/
def awareUp (d : Dev) : Bool := decide (3 ≤ d.boot.stage.rank)

def strEn (d : Dev) (s : Nat) : Bool := d.flag 0 0x30 s && decide (s < 4)
def legEn (d : Dev) (n : Nat) : Bool := d.flag 0 0x30 (16 + n) && decide (n < 4)
def profC (d : Dev) : Bool := d.flag 0 0x30 8
def strFirst (d : Dev) (s : Nat) : Nat := d.fld 0 (0x40 + 4 * s) 5 0
def strCount (d : Dev) (s : Nat) : Nat := d.fld 0 (0x40 + 4 * s) 12 8
def curPos (d : Dev) (s : Nat) : Nat := d.fld 0 (0x40 + 4 * s) 19 16
/-- The cells of a string, in order of position. -/
def strCells (d : Dev) (s : Nat) : List Nat := (List.range (d.strCount s)).map (fun p => d.strFirst s + p)
/-- The enabled strings. -/
def strings (d : Dev) : List Nat := (List.range 4).filter d.strEn
/-- The enabled legs, as units. -/
def legs (d : Dev) : List Nat := ((List.range 4).filter d.legEn).map (48 + ·)
/-- The enabled string that holds a cell. -/
def strOf (d : Dev) (k : Nat) : Option Nat :=
  d.strings.find? (fun s => decide (d.strFirst s ≤ k ∧ k < d.strFirst s + d.strCount s))
/-- The configured string, enabled or not, that holds a cell. -/
def strCfgOf (d : Dev) (k : Nat) : Option Nat :=
  (List.range 4).find? (fun s => decide (d.strFirst s ≤ k ∧ k < d.strFirst s + d.strCount s))
/-- The cell that samples a string's current (R17). -/
def curCell (d : Dev) (s : Nat) : Nat := d.strFirst s + d.curPos s
/-- A unit takes part in control (R16). -/
def inTopo (d : Dev) (u : Nat) : Bool := if u < 48 then (d.strOf u).isSome else d.legEn (u - 48)
/-- Cells in enabled strings (Table 1.2). -/
def nCells (d : Dev) : Nat := sumN (d.strings.map d.strCount)
/-- TOPO_STAT.DOMAINS_REQ (R18). -/
def domainsReq (d : Dev) : Nat :=
  let hiCell := d.strings.any (fun s => (d.strCells s).any (fun k => decide (24 ≤ k)))
  b2n (!d.strings.isEmpty) + 2 * b2n (hiCell || !d.legs.isEmpty)

/-- Field of CTX_x:CFG of a context. -/
def ctxCfg (d : Dev) (c hi lo : Nat) : Nat := d.fld (ctxPage c) (0x44 + 0x20 * ctxIdx c) hi lo

/-- The number of elements of a context (Table 7.5). -/
def nElem (d : Dev) (c : Nat) : Nat := d.ctxCfg c 19 16 + 1
/-- A committed output of an element; 0 for no context, for an element the context does not have, and while the
fault policy zeroes it (R124, R140, Table 7.3). -/
def ctxOut (d : Dev) (c e p : Nat) : Int :=
  if c = 0 || (d.cx c).zero || decide (d.nElem c ≤ e) then 0 else listGet (d.elem c e).out p

/-- The control period in force (R179, R181). -/
def tc (d : Dev) : Nat := d.lat.tc
/-- The sample instant t_m (R179). -/
def tm (d : Dev) (m : Nat) : Nat := m * d.lat.tc
/-- LOCUS:CTRL.SRC. -/
def src (d : Dev) : Nat := d.fld 3 0x20 2 0

end Dev

/-- The number of positions of a link's node (R93). -/
def positions (u : Nat) : Nat := if u < 48 then 12 else 2
/-- The code of a Locus state (Table 2.9). -/
def LocusState.code : LocusState → Nat
  | .free => 0
  | .acquire => 1
  | .locked => 2
  | .holdover => 3
  | .fault => 4

end Sys2Proof.Machine
end

