-- ==== Sys2Proof/Machine/Flags.lean ====
section
/-! DEFINITION. Events, interrupts, the event log, ignored writes and the end of commands: every flag the
spec has a block raise goes through these operations. -/

namespace Sys2Proof.Machine
namespace Dev

/-- A word of the MSI-X table; vector control resets to masked. PRESUMED [2]. -/
def msixWord (d : Dev) (off : Nat) : Nat :=
  (tget (w32 (if off % 16 = 12 then 1 else 0)) d.bus.msix off).toNat
/-- A vector is masked under the MSI-X rules. -/
def vecMasked (d : Dev) (v : Nat) : Bool := d.bus.msixMask || bit (d.msixWord (16 * v + 12)) 0
/-- Sends one message on a vector, or records it as pending, or neither while the link is down or
MSI-X Enable is 0 (R417). -/
def msixSend (d : Dev) (v : Nat) : Dev :=
  if d.bus.linkUp && d.bus.msixEn then
    if d.vecMasked v then d.modBus (fun b => { b with pba := setBit b.pba v true })
    else d.modBus (fun b => { b with sent := v :: b.sent })
  else d
/-- EVT_PEND of a page (R416). -/
def pend (d : Dev) (p : Nat) : Nat := (d.pg p).raw &&& (d.pg p).mask
/-- The message of a page whose PAGE_CTRL.MSIX is 1 (R417). -/
def pageMsix (d : Dev) (p : Nat) : Dev :=
  let c := (d.pg p).ctrl.toNat
  if bit c 0 then d.msixSend (bits c 12 8) else d
/-- Raises event n of a page; the events of a domain that is off are lost (R416, R417). -/
def raise (d : Dev) (p n : Nat) : Dev :=
  if d.pageOn p then
    let d' := d.updPage p (fun q => { q with raw := setBit q.raw n true })
    if bit (d'.pend p) n && !bit (d.pend p) n then d'.pageMsix p else d'
  else d
/-- IRQ_N is asserted (R418). -/
def irqN (d : Dev) : Bool :=
  (List.range 64).any (fun p => d.pageOn p && bit (d.pg p).ctrl.toNat 1 && d.pend p != 0)

/-- Entries the LOG partition holds (Table 12.4). -/
def logCap (d : Dev) : Nat := d.fld 0x2C 0x50 7 0 * 32768
/-- The log takes an entry: PD7 is on, the partition enabled, and no readout keeps the oldest entry of a full
ring (R316). -/
def logOpen (d : Dev) : Bool :=
  d.domOn 7 && d.flag 0x2C 0x50 31 &&
    (decide (d.cap.log.length < d.logCap) ||
      !(d.cap.reads.any (fun r => r.part == 2 && decide (r.recid ≤ (d.cap.log.getLast?.map (·.seq)).getD 0))))
/-- Moves buffered entries into the log while it takes them (R316). -/
def logDrainN : Nat → Dev → Dev
  | 0, d => d
  | n + 1, d =>
    match d.cap.buf with
    | [] => d
    | e :: r =>
      if d.logOpen then
        logDrainN n (d.modCap (fun c => { c with buf := r, log := e :: c.log.take (d.logCap - 1) }))
      else d
def logDrain (d : Dev) : Dev := logDrainN d.cap.buf.length d
/-- Writes an entry with the next sequence number, buffers it in PD0, or drops and counts it (R316). -/
def logEntry (d : Dev) (e : LogEntry) : Dev :=
  let e := { e with seq := d.cap.logSeq }
  let d := d.logDrain
  if d.cap.buf.isEmpty && d.logOpen then
    d.modCap (fun c => { c with logSeq := c.logSeq + 1, log := e :: c.log.take (d.logCap - 1) })
  else if d.cap.buf.length < 256 then
    d.modCap (fun c => { c with logSeq := c.logSeq + 1, buf := c.buf ++ [e] })
  else
    let d := d.modCap (fun c => { c with logLost := sat1 32 c.logLost })
    if d.domOn 7 then d.raise 0x2C 4 else d.modCap (fun c => { c with lostOff := true })
/-- A log entry of an event of a page with a plain TS64 (Table 12.10). -/
def logEv (d : Dev) (ts page n : Nat) (unit : Nat := 255) (detail : Nat := 0) (sub : Nat := 0) (arg : Int := 0) : Dev :=
  d.logEntry { ts := ts, page := page, bit := n, detail := detail, unit := unit, sub := sub, arg := arg }
/-- Raises an event that the log also records. -/
def raiseLog (d : Dev) (ts page n : Nat) (unit : Nat := 255) (detail : Nat := 0) (sub : Nat := 0) (arg : Int := 0) : Dev :=
  (d.raise page n).logEv ts page n unit detail sub arg

/-- Counts an ignored write and raises DEV:EVT_RAW.VIOL (R405, Table 16.2). -/
def violate (d : Dev) (rq : Req) (t : Target) (reason : Nat) : Dev :=
  let src := match rq with
    | .pcie => 0
    | .qspi => 2 ^ 31
    | .load => 2 ^ 30
  let loc := match t with
    | .bar0 page off => min page 0x3F * 2 ^ 16 + off % 2 ^ 12
    | .bar2 off => 2 ^ 22 + off % 2 ^ 16
  { d with viol := { count := sat1 32 d.viol.count, last := src + reason * 2 ^ 24 + loc } }.raise 0 1
/-- Counts a staged write that a commit discards (R210, R216). DEDUCED: VIOL_COUNT only [15]. -/
def discardCount (d : Dev) : Dev := { d with viol := { d.viol with count := sat1 32 d.viol.count } }

/-- Command status codes (Table 16.6). -/
def stDone : Nat := 0x00
def stShort : Nat := 0x01
def stBadArg : Nat := 0x10
def stBadLength : Nat := 0x11
def stBusy : Nat := 0x12
def stRefState : Nat := 0x13
def stRefTemp : Nat := 0x14
def stSuper : Nat := 0x15
def stAborted : Nat := 0x16
def stHwFault : Nat := 0x20
def stTimeout : Nat := 0x21

/-- A command ends: its slot waits for its completion entry (R412). -/
def endCmd (d : Dev) (now n status : Nat) (result : Nat := 0) : Dev :=
  match d.slot n with
  | some sl =>
    if sl.ended.isSome then d
    else
      (d.updSlot n (fun s => { s with ended := some (status, result, now) })).modBus
        (fun b => { b with ended := b.ended ++ [n], waiting := b.waiting.filter (· != n) })
  | none => d
/-- A command that runs: begun, not ended. -/
def running (d : Dev) (n : Nat) : Bool :=
  match d.slot n with
  | some sl => sl.begun && sl.ended.isNone
  | none => false
/-- The slots of running commands of an opcode. -/
def runningOp (d : Dev) (op : Nat) : List Nat :=
  (List.range 32).filter (fun n => d.running n && (d.slot n).any (fun s => s.op == op))
/-- The oldest accepted command that has not begun, where it carries the opcode (R410). -/
def nextCmd (d : Dev) (op : Nat) : Option (Nat × Slot) :=
  match d.bus.waiting with
  | [] => none
  | n :: _ =>
    match d.slot n with
    | some s => if s.op = op then some (n, s) else none
    | none => none
/-- The oldest accepted command begins (R410). -/
def beginCmd (d : Dev) (n : Nat) : Dev :=
  (d.updSlot n (fun s => { s with begun := true })).modBus (fun b => { b with waiting := b.waiting.filter (· != n) })

/-- Bytes i to i + n − 1 of a command's arguments, little-endian; byte 0 is descriptor byte 8 (R407). -/
def argLE (s : Slot) (i n : Nat) : Nat :=
  (List.range n).foldr (fun j a => a * 256 + s.args.getD (i + j) 0) 0

end Dev
end Sys2Proof.Machine
end

