-- ==== Sys2Proof/Machine/Capture.lean ====
section
/-! DEFINITION. Capture memory (chapter 12): triggers, rings and records, readout, the store, and the trigger
pins. -/

namespace Sys2Proof.Machine
namespace Dev

/-- The three rings: partition indices 0 WF, 1 DIST, 3 TRACE (Table 12.4). -/
def ringOf (d : Dev) (i : Nat) : RingSt := if i = 0 then d.cap.wf else if i = 1 then d.cap.dist else d.cap.trace
def updRing (d : Dev) (i : Nat) (f : RingSt → RingSt) : Dev :=
  d.modCap (fun c => if i = 0 then { c with wf := f c.wf } else if i = 1 then { c with dist := f c.dist }
    else { c with trace := f c.trace })
def partEn (d : Dev) (i : Nat) : Bool := d.flag 0x2C (0x40 + 8 * i) 31
def partBytes (d : Dev) (i : Nat) : Nat := d.fld 0x2C (0x40 + 8 * i) 7 0 * 1048576
def capEn (d : Dev) : Bool := d.domOn 7 && d.flag 0x2C 0x20 0
/-- PRE and POST of a ring, in its own units (WF_REC, DIST_REC, TRACE_REC). -/
def ringPre (d : Dev) (i : Nat) : Nat := d.fld 0x2C (if i = 0 then 0x70 else if i = 1 then 0x78 else 0x84) 31 16
def ringPost (d : Dev) (i : Nat) : Nat := d.fld 0x2C (if i = 0 then 0x70 else if i = 1 then 0x78 else 0x84) 15 0
def nSel (d : Dev) : Nat := d.fld 0x2C 0x80 6 0
/-- Frame bytes of a ring (Table 12.6). -/
def frameBytes (d : Dev) (i : Nat) : Nat :=
  if i = 0 then 2 * (onBits 16 (d.fld 0x2B 0x2C 15 0)).length
  else if i = 1 then 16 + (2 * d.nSel + 7) / 8 * 8 else 16
/-- Slots a ring gets when CTRL.EN sets (R308). -/
def slotsFor (d : Dev) (i : Nat) : Nat :=
  if i = 3 then d.fld 0x2C 0x8C 5 0
  else d.partBytes i / (64 + (d.ringPre i + d.ringPost i) * 16 * d.frameBytes i)
/-- Frames or entries a slot of a ring holds. -/
def slotFrames (d : Dev) (i : Nat) : Nat :=
  if i = 3 then
    let n := d.fld 0x2C 0x8C 5 0
    if n = 0 then 0 else (d.partBytes 3 / n - 64) / 16
  else (d.ringPre i + d.ringPost i) * 16
/-- A ring records (R308). -/
def recording (d : Dev) (i : Nat) : Bool := d.capEn && d.partEn i && decide (0 < (d.ringOf i).slots)

/-- A frame lies at or before a stamp. -/
def frameBy (f : Frame) (stamp fine : Nat) : Bool := decide (16 * f.t + f.fine ≤ 16 * stamp + fine)
/-- WF or DIST frames that lie between s0, the last frame at or before a record's stamp, and a later frame, where none of them
is held: the slot was emptied, or the ring started, after the stamp (R310). DEDUCED [87]: counted by the frame's period. -/
def frameGap (o : Rec) (f : Frame) : Nat :=
  if o.tframe = 0 then 0 else (16 * (16 * f.t + f.fine - (16 * o.ttrig + o.fine)) + o.tframe - 1) / o.tframe - 1
/-- A later WF or DIST frame joins an open record, which ends with frame s0 + 16 × POST − 1 (R310). -/
def frameAfter (o : Rec) (f : Frame) : Rec :=
  let left := if o.frames = [] then o.left - frameGap o f else o.left
  if 0 < left then { o with frames := o.frames ++ [f], left := left - 1 } else { o with left := 0 }
/-- A frame or entry is written to a ring's live slot, and to the open record while it lasts (R308, R310). A WF or DIST
frame that forms after a trigger but lies at or before its stamp moves the record's s0 on to it. -/
def pushFrame (d : Dev) (i : Nat) (f : Frame) : Dev :=
  if !d.recording i then d
  else
    d.updRing i (fun r =>
      let full := decide (d.slotFrames i ≤ r.live.length)
      let r := { r with
        live := f :: r.live.take (d.slotFrames i - 1)
        since := if full then max r.since ((r.live.getLast?.map (fun (x : Frame) => x.t + 1)).getD 0) else r.since }
      match r.opened with
      | none => r
      | some o =>
        if i = 3 then
          if f.t < o.tEnd then
            let fr := o.frames ++ [f]
            if d.slotFrames 3 < fr.length then { r with opened := some { o with frames := fr.tail, short := true } }
            else { r with opened := some { o with frames := fr } }
          else r
        else if frameBy f o.ttrig o.fine then
          let fr := o.frames ++ [f]
          let n := 16 * d.ringPre i + 1
          { r with opened := some { o with frames := fr.drop (fr.length - n), short := decide (fr.length < n) } }
        else { r with opened := some (frameAfter o f) })

/-- CRC-32 of the selector list (Table 12.6). -/
def selCrc (d : Dev) : Nat :=
  crc32 ((List.range d.nSel).flatMap (fun j => bytesLE 2 (d.rd 0x2C (0x100 + 4 * (j / 2)) / 2 ^ (16 * (j % 2)))))
/-- P̄ in ticks, and in the 1/256 ns of CLK_STAT (R268, Table 11.8). -/
def meanPer (d : Dev) : Rat := (d.prism.pbar.span : Rat) / d.prism.pbar.n
def meanPer256 (d : Dev) : Nat := (Config.roundAt 28 (16 * d.meanPer)).toNat
/-- The modulator clock period in 1/256 ns: P in INT mode, the measured mean in EXT mode. -/
def clkPer256 (d : Dev) : Nat := if d.fld 0x28 0x20 17 16 = 2 then d.meanPer256 else 256 * d.fld 0x28 0x20 6 0

/-- OFFSET in force at an instant of the last 10 s, and TQ and the Locus state then (Table 12.6). -/
def offsetAt (d : Dev) (t : Nat) : Nat :=
  match (d.phasor.steps.filter (fun (x : Nat × Nat) => decide (t < x.1))).getLast? with
  | some x => x.2
  | none => d.locus.offset
def timeAt (d : Dev) (t : Nat) : Nat × Nat :=
  match d.phasor.hist.find? (fun (h : PSnap) => decide (h.t ≤ t)) with
  | some h => (h.tq, h.st.code)
  | none => (d.locus.tq, d.locus.st.code)
/-- A trigger at a stamp, with its fine part, opens or joins a record of a ring (R309, R310). -/
def ringTrig (d : Dev) (i src unit stamp fine : Nat) : Dev :=
  let mask := d.rd 0x2C (if i = 0 then 0x74 else if i = 1 then 0x7C else 0x88)
  if !d.recording i || !bit mask src then d
  else
    let r := d.ringOf i
    let d' := match r.opened with
      | some o => d.updRing i (fun r => { r with opened := some { o with ntrig := min 255 (o.ntrig + 1) } })
      | none =>
        let pre : Nat := if i = 3 then 0 else 16 * d.ringPre i
        let post : Nat := if i = 3 then 0 else 16 * d.ringPost i
        let past := r.live.filter (fun f => frameBy f stamp fine)
        let futr := (r.live.filter (fun f => !frameBy f stamp fine)).reverse
        let lo := stamp - 1000 * d.ringPre 3
        let hi := stamp + 1000 * d.ringPost 3
        let frames :=
          if i = 3 then (r.live.filter (fun (f : Frame) => decide (lo ≤ f.t ∧ f.t < hi))).reverse
          else (past.take (pre + 1)).reverse
        let o : Rec := {
          id := d.cap.nextId, slot := r.slot, src := src, unit := unit, ttrig := stamp, fine := fine
          short := if i = 3 then decide (lo < r.since) else decide (past.length < pre + 1)
          tFirst := lo, tEnd := hi
          left := post - 1
          frames := frames, fbytes := d.frameBytes i
          map := if i = 0 then d.fld 0x2B 0x2C 15 0 else if i = 1 then d.selCrc else 0
          tframe := if i = 0 then 4 * d.clkPer256 else if i = 1 then d.fld 0x2C 0x80 31 24 * d.tc * 256 else 0
          offset := d.offsetAt stamp, tq := (d.timeAt stamp).1, lstate := (d.timeAt stamp).2 }
        let o := if i = 3 then o else futr.foldl frameAfter o
        (d.updRing i (fun r => { r with opened := some o })).modCap (fun c => { c with nextId := c.nextId + 1 })
    d'.raise 0x2C 0
/-- A trigger of a source is decided: the rings and the trigger output take it (R309, R319). -/
def trigger (d : Dev) (now src unit stamp : Nat) (fine : Nat := 0) : Dev :=
  let chOk := if src = 2 || src = 3 then d.flag 0x2C 0x38 unit else if src = 4 then d.flag 0x2C 0x38 (16 + unit) else true
  let d := if chOk then [0, 1, 3].foldl (fun d i => d.ringTrig i src unit stamp fine) d else d
  if chOk && d.domOn 7 && d.flag 0x2C 0x2C 1 && bit (d.rd 0x2C 0x30) src && d.cap.pulse.isNone then
    d.modCap (fun c => { c with pulse := some (now + 100 * d.fld 0x2C 0x30 31 16) })
  else d

/-- A record is locked (R312). -/
def recLocked (r : Rec) : Bool := decide (0 < r.reads) || r.keep
/-- Submitted readouts of a record that have not completed (R312). -/
def readsOf (d : Dev) (i id : Nat) : Nat :=
  ((List.range 32).filter (fun n => (d.slot n).any (fun s =>
    s.op == 0x18 && s.ended.isNone && argLE s 0 1 == i && argLE s 8 8 == id))).length
/-- A record closes and the ring takes a new live slot (R311); readouts submitted before lock it (R312). -/
def closeRec (d : Dev) (now i : Nat) : Dev :=
  let r := d.ringOf i
  match r.opened with
  | none => d
  | some o =>
    let o := { o with trunc := i != 3 && decide (0 < o.left), reads := d.readsOf i o.id }
    let d := (d.updRing i (fun r => { r with newest := o.id, opened := none, live := [], since := now })).raise 0x2C 1
    let used := if r.used.contains r.slot then r.used else r.used ++ [r.slot]
    match (List.range r.slots).find? (fun n => !used.contains n) with
    | some n => d.updRing i (fun r => { r with recs := o :: r.recs, used := used, slot := n })
    | none =>
      match (r.recs.reverse).find? (fun x => !recLocked x) with
      | some v =>
        (d.updRing i (fun r => { r with
          recs := o :: r.recs.filter (fun x => x.id != v.id), used := used, slot := v.slot, nOver := sat1 16 r.nOver })).raise 0x2C 2
      | none => (d.updRing i (fun r => { r with lost := satN 16 r.lost (o.ntrig + 1) })).raise 0x2C 3

/-- CTRL.EN sets: the slot counts are fixed and recording starts (R308). -/
def capStart (d : Dev) (now : Nat) : Dev :=
  [0, 1, 3].foldl (fun d i => d.updRing i (fun r => { r with
    slots := d.slotsFor i, live := [], since := now, opened := none
    slot := ((List.range (d.slotsFor i)).find? (fun n => !(r.used.contains n))).getD r.slot })) d
/-- Recording stops: an open record closes where it is. -/
def capStop (d : Dev) (now : Nat) : Dev := [0, 1, 3].foldl (fun d i => (d.closeRec now i).updRing i (fun r => { r with live := [] })) d
/-- A partition's contents are discarded (R307). -/
def partDiscard (d : Dev) (i : Nat) : Dev :=
  if i = 2 then d.modCap (fun c => { c with log := [] })
  else if i = 4 then d.modCap (fun c => { c with store := [] })
  else d.updRing i (fun r => { r with slots := 0, live := [], opened := none, recs := [], used := [], slot := 0 })

/-- The bytes of a record (Table 12.6). -/
def recBytes (i : Nat) (r : Rec) : List Nat :=
  bytesLE 4 r.id ++ [i, r.src, r.unit, min 255 r.ntrig] ++ bytesLE 8 r.ttrig ++
    [r.fine * 16 + b2n r.ecc * 4 + b2n r.trunc * 2 + b2n r.short, 0, 0, 0] ++ bytesLE 4 r.fbytes ++
    bytesLE 8 ((r.frames.head?.map (·.t)).getD 0) ++ bytesLE 4 r.frames.length ++ bytesLE 4 r.map ++ bytesLE 4 r.tframe ++
    bytesLE 8 r.offset ++ [r.tq, r.lstate] ++ List.replicate 10 0 ++ r.frames.flatMap (·.bytes)
/-- The bytes of a log entry (Table 12.10). -/
def logBytes (e : LogEntry) : List Nat :=
  bytesLE 8 e.seq ++ bytesLE 8 e.ts ++ [e.flags, e.page, e.bit, e.detail, e.unit, e.sub, 0, 0] ++ bytesLE 8 (ux 64 e.arg)

/-- The record of an identifier in a ring. -/
def findRec (d : Dev) (i id : Nat) : Option Rec := (d.ringOf i).recs.find? (fun r => r.id == id)
/-- Applies a function to a stored record. -/
def updRec (d : Dev) (i id : Nat) (f : Rec → Rec) : Dev :=
  d.updRing i (fun r => { r with recs := r.recs.map (fun x => if x.id = id then f x else x) })
/-- A readout that names a record locks it from its submission (R312). -/
def readLock (d : Dev) (part id : Nat) : Dev :=
  if part = 0 || part = 1 || part = 3 then d.updRec part id (fun r => { r with reads := r.reads + 1 }) else d
def readUnlock (d : Dev) (part id : Nat) : Dev :=
  if part = 0 || part = 1 || part = 3 then d.updRec part id (fun r => { r with reads := r.reads - 1 }) else d

/-- Arguments of CMD_CAPTURE_READ (Table 12.11). -/
def crPart (s : Slot) : Nat := argLE s 0 1
def crFlags (s : Slot) : Nat := argLE s 1 1
def crRec (s : Slot) : Nat := argLE s 8 8
def crOff (s : Slot) : Nat := argLE s 16 4
def crLen (s : Slot) : Nat := argLE s 20 4
def crAddr (s : Slot) : Nat := argLE s 24 8

/-- Newest and oldest sequence numbers held in the log (R316). -/
def logNew (d : Dev) : Nat := (d.cap.log.head?.map (·.seq)).getD 0
def logOld (d : Dev) : Nat := (d.cap.log.getLast?.map (·.seq)).getD 0
/-- Bytes from the start of what a readout names to its end (R317); 0 where it names nothing held. -/
def crEnd (d : Dev) (s : Slot) : Nat :=
  let p := crPart s
  if p = 2 then
    if d.logOld ≤ crRec s && crRec s ≤ s.early && decide (0 < d.logOld) then (s.early - crRec s + 1) * 32 else 0
  else if p = 4 then (if crRec s = 0 then d.partBytes 4 else 0)
  else
    match d.findRec p (crRec s) with
    | some r => 64 + r.frames.length * r.fbytes
    | none => 0
/-- The offset of the first argument that fails, if one does (R317). -/
def crBad (d : Dev) (s : Slot) : Option Nat :=
  let p := crPart s
  let on := d.domOn 7
  if 4 < p || (on && !d.partEn p) then some 8
  else if 1 < crFlags s || (crFlags s = 1 && (p = 2 || p = 4)) then some 9
  else if on && d.crEnd s = 0 then some 16
  else if (p = 2 && crOff s != 0) || (on && decide (d.crEnd s ≤ crOff s)) then some 24
  else if crLen s = 0 then some 28
  else if crAddr s % 8 != 0 then some 32
  else none

/-- The bytes a readout transfers. -/
def crBytes (d : Dev) (r : CapRead) : List Byte :=
  let all :=
    if r.part = 2 then ((d.cap.log.filter (fun e => decide (r.recid ≤ e.seq))).reverse).flatMap logBytes
    else if r.part = 4 then (List.range r.n).map (fun i => (tget 0 d.cap.store (r.off + i)).toNat)
    else match d.findRec r.part r.recid with
      | some x => recBytes r.part x
      | none => []
  let off := if r.part = 4 then 0 else r.off
  ((all.drop off).take r.n).map (BitVec.ofNat 8)

/-- CMD_CAPTURE_READ executes (R317). With KEEP its record stays locked whatever the command then ends with (R312). -/
def doCaptureRead (d : Dev) (now : Nat) : Dev :=
  match d.nextCmd 0x18 with
  | none => d
  | some (n, s) =>
    let d := d.beginCmd n
    let fin := fun (d : Dev) (st r : Nat) => (d.readUnlock (crPart s) (crRec s)).endCmd now n st r
    match d.crBad s with
    | some o => fin d stBadArg o
    | none =>
      if crPart s = 2 && crLen s % 32 != 0 then fin d stBadLength 0
      else if !d.domOn 7 then fin d stRefState 0
      else
        let keep := crFlags s = 1
        let d := if keep then d.updRec (crPart s) (crRec s) (fun r => { r with keep := true }) else d
        if 4 ≤ d.cap.reads.length then fin d stBusy 0
        else if !d.bus.busMaster then fin d stHwFault 0
        else
        let avail := d.crEnd s - crOff s
        d.modCap (fun c => { c with reads := c.reads ++ [{
          slot := n, part := crPart s, recid := crRec s, off := crOff s, len := crLen s, addr := crAddr s
          n := min (crLen s) avail, short := decide (avail < crLen s), keep := keep }] })
/-- The single-bit ECC errors corrected in a transfer are counted, where it reads capture memory (R320). -/
def corrected (d : Dev) (fromCap : Bool) (x : Xfer) : Dev :=
  let n := match x with
    | .ok _ n | .pcieErr _ n | .eccErr _ n => n
  if fromCap then d.modCap (fun c => { c with eccC := satN 16 c.eccC n }) else d
/-- A capture readout ends (R317, R320). -/
def doCaptureReadEnd (d : Dev) (now n : Nat) (x : Xfer) : Dev :=
  match d.cap.reads.find? (fun r => r.slot == n) with
  | none => d
  | some r =>
    let out := d.crBytes r
    let d := ((d.modCap (fun c => { c with reads := c.reads.filter (fun q => q.slot != n) })).readUnlock r.part r.recid).corrected true x
    let d := match x with
      | .ok _ _ => (d.modBus (fun b => { b with dma := (r.addr, out) :: b.dma })).endCmd now n
          (if r.short then stShort else stDone) (if r.short then r.n else 0)
      | .pcieErr b _ =>
        (d.modBus (fun q => { q with dma := (r.addr, out.take b) :: q.dma })).endCmd now n stHwFault b
      | .eccErr b _ =>
        let d := (d.modCap (fun c => { c with eccU := sat1 16 c.eccU })).modBus
          (fun q => { q with dma := (r.addr, out.take b) :: q.dma })
        let d := if r.part = 0 || r.part = 1 || r.part = 3 then d.updRec r.part r.recid (fun y => { y with ecc := true }) else d
        (d.raise 0x2C 5).endCmd now n stHwFault b
    d.logDrain

/-- A CMD_CTX_LOAD or CMD_BANK_LOAD with SRC 1 is running (R318, Tables 8.5 and 11.4). -/
def storeInUse (d : Dev) : Bool :=
  (d.runningOp 0x10).any (fun n => (d.slot n).any (fun s => argLE s 3 1 == 1)) ||
    (d.runningOp 0x11).any (fun n => (d.slot n).any (fun s => argLE s 8 1 == 1))
/-- CMD_STORE_WRITE executes (R318). -/
def doStoreWrite (d : Dev) (now : Nat) : Dev :=
  match d.nextCmd 0x19 with
  | none => d
  | some (n, s) =>
    let d := d.beginCmd n
    let off := argLE s 0 4
    let len := argLE s 4 4
    if off % 4 != 0 then d.endCmd now n stBadArg 8
    else if len = 0 then d.endCmd now n stBadArg 12
    else if argLE s 8 8 % 4 != 0 then d.endCmd now n stBadArg 16
    else if d.domOn 7 && decide (d.partBytes 4 < off + len) then d.endCmd now n stBadLength
    else if !d.domOn 7 || !d.partEn 4 then d.endCmd now n stRefState
    else if d.storeInUse then d.endCmd now n stBusy
    else if !d.bus.busMaster then d.endCmd now n stHwFault
    else d.modCap (fun c => { c with storeWr := c.storeWr ++ [(n, off, len)] })
/-- Writes bytes to the store from an offset. -/
def storePut (d : Dev) (off : Nat) (bs : List Nat) : Dev :=
  let m' := bs.zipIdx.foldl (fun m p => tset 0 m (off + p.2) (BitVec.ofNat 8 p.1)) d.cap.store
  d.modCap (fun c => { c with store := m' })
/-- The oldest store write ends (R318). The bytes moved before an error are free values [5]. -/
def doStoreWriteEnd (d : Dev) (now : Nat) (x : Xfer) : Dev :=
  match d.cap.storeWr with
  | [] => d
  | (n, off, len) :: r =>
    let d := d.modCap (fun c => { c with storeWr := r })
    match x with
    | .ok words _ => (d.storePut off ((words.flatMap (bytesLE 4)).take len)).endCmd now n stDone
    | .pcieErr b _ | .eccErr b _ =>
      let (f, d) := d.drawFree
      (d.storePut off ((List.range (min b len)).map (fun i => Config.freeNat (f * 2 ^ 24 + i)))).endCmd now n stHwFault b

end Dev

/-- CMD_CAPTURE_READ (R317). -/
def execCmdCaptureRead (s : State) : Host.Outcome State Fault Refusal := onDev s (fun t d => d.doCaptureRead t)
/-- CAPTURE_READ_END (R317). -/
def execCaptureReadEnd (slot : Nat) (x : Xfer) (s : State) : Host.Outcome State Fault Refusal :=
  onDev s (fun t d => d.doCaptureReadEnd t slot x)
/-- CMD_STORE_WRITE (R318). -/
def execCmdStoreWrite (s : State) : Host.Outcome State Fault Refusal := onDev s (fun t d => d.doStoreWrite t)
/-- STORE_WRITE_END (R318). -/
def execStoreWriteEnd (x : Xfer) (s : State) : Host.Outcome State Fault Refusal :=
  onDev s (fun t d => d.doStoreWriteEnd t x)
/-- EXT_TRIGGER: an edge on SD15 that has passed the glitch filter, while the trigger input holds the pin; only one of the
polarity set in TIN_CFG.POL triggers (R309, R319). -/
def execExtTrigger (edge : PinEdge) (s : State) : Host.Outcome State Fault Refusal :=
  onDev s (fun t d =>
    if d.domOn 7 && d.flag 0x2C 0x2C 0 && edge.rising != d.flag 0x2C 0x34 0 then
      d.trigger t 1 255 (edge.ticks / 16) (edge.ticks % 16)
    else d)
/-- TRIGGER_PULSE_END (R319). -/
def execTriggerPulseEnd (s : State) : Host.Outcome State Fault Refusal :=
  onDev s (fun _ d => d.modCap (fun c => { c with pulse := none }))
/-- RECORD_CLOSE (R311). -/
def execRecordClose (ring : Nat) (s : State) : Host.Outcome State Fault Refusal :=
  onDev s (fun t d => if ring = 0 || ring = 1 || ring = 3 then d.closeRec t ring else d)

end Sys2Proof.Machine
end

