-- ==== Sys2Proof/Machine/Mute.lean ====
section
/-! DEFINITION. The mute weight of a stream receiver (R332, R333), and what a change of stage does to the stream
ports (R325, R335). -/

namespace Sys2Proof.Machine

/-- The frame rates of Table 13.2 in Hz, by code. -/
def rxHz (c : Nat) : Nat := [1, 32000, 44100, 48000, 88200, 96000, 176400, 192000, 12800, 15360].getD c 1
/-- F_nom of a rate code in ticks of 1/16 ns (Table 13.2). -/
def fNom (c : Nat) : Rat := 16000000000 / rxHz c
/-- A full mute weight: 1 per 1,000,000 ns (R332). -/
def wFull : Nat := 1000000

/-- The weight after some ns under a goal (R332). -/
def wMove (w dt : Nat) (goal : Bool) : Nat := if goal then min wFull (w + dt) else w - dt

namespace Dev

/-- The mute causes of both subframes of a receiver (Table 13.3). -/
def rxBoth (p : Port) : Bool := p.st != .locked || p.closing || p.nonaudio || p.latLow || p.ofs
/-- The goal of a subframe is 1 (R332, R333). -/
def rxGoal (p : Port) (s : RxSt) : Bool := !(rxBoth p || s.cMiss || s.cUnder)
/-- The weight of a subframe at an instant, if nothing changes before (R332). -/
def rxW (p : Port) (s : RxSt) (t : Nat) : Nat := wMove s.w (t - s.wt) (rxGoal p s)
/-- Both weights are brought to the present. -/
def rxSettle (p : Port) (now : Nat) : Port :=
  { p with
    s1 := { p.s1 with w := rxW p p.s1 now, wt := now }
    s2 := { p.s2 with w := rxW p p.s2 now, wt := now } }
/-- What a receiver no longer holds once it has left LOCKING and LOCKED. -/
def rxForget (p : Port) : Port :=
  { p with
    stable := 0, rate := 0, blocks := [], lastFrame := none, nFrames := 0, total := 0, stableOk := false, blkConc := false
    offRun := 0, ivl := 0, pa := false, burst := false, colC1 := 0, colC2 := 0, colU1 := 0, colU2 := 0, words := [] }
/-- A receiver in OFF. -/
def rxOffOf (p : Port) : Port :=
  { rxForget p with
    st := .off, frames := [], ofs := false, unsup := false, latLow := false, nonaudio := false, audioRun := 0
    concealing := false, closing := false, s1 := { placed := p.s1.placed }, s2 := { placed := p.s2.placed } }
/-- A receiver that closes enters OFF once both weights are 0 (R335). -/
def rxMaybeOff (p : Port) : Port := if p.closing && p.s1.w = 0 && p.s2.w = 0 then rxOffOf p else p
/-- RX_CFG.EN and TX_CFG.EN of a port. -/
def rxEn (d : Dev) (n : Nat) : Bool := d.flag 0x30 (0x100 + 0x40 * n) 0
def txEn (d : Dev) (n : Nat) : Bool := d.flag 0x30 (0x120 + 0x40 * n) 0
/-- The goals of a receiver become 0 for good: EN cleared, or the stage fell (R335). -/
def rxClose (d : Dev) (now n : Nat) : Dev :=
  if (d.port! n).st == .off then d
  else d.updPort n (fun p => rxMaybeOff { rxSettle p now with closing := true })
/-- Fields of RX_CFG, and LAT in ns. -/
def rxCfg (d : Dev) (n hi lo : Nat) : Nat := d.fld 0x30 (0x100 + 0x40 * n) hi lo
def rxLat (d : Dev) (n : Nat) : Nat := 10 * d.fld 0x30 (0x104 + 0x40 * n) 19 0
/-- The receiver runs: it is not in OFF (R325). -/
def rxOn (d : Dev) (n : Nat) : Bool := decide (n < 8) && d.domOn 8 && (d.port! n).st != .off
/-- The bound of LAT in ns at a rate; in AUTO without a rate, that of the fastest (R331). -/
def latBound (d : Dev) (rate : Nat) : Rat := 4 * fNom (if rate = 0 then 7 else rate) / 16 + d.fld 0x20 0x20 15 0
def latBad (d : Dev) (n : Nat) : Bool :=
  let r := if d.rxCfg n 11 8 = 0 then (d.port! n).rate else d.rxCfg n 11 8
  r != 0 && decide ((d.rxLat n : Rat) < d.latBound r)
/-- A port changes with its weights brought to the present first (R332). -/
def rxUpd (d : Dev) (now n : Nat) (f : Port → Port) : Dev := d.updPort n (fun p => f (rxSettle p now))
/-- A receiver that runs with LAT below the bound mutes: after a change of T_c, or on leaving OFF (R331). -/
def rxLatCheck (d : Dev) (now : Nat) : Dev :=
  d.each (List.range 8) (fun d n => if d.rxOn n && d.latBad n then d.rxUpd now n (fun p => { p with latLow := true }) else d)
/-- A receiver that may run leaves OFF for SEARCH, or stops closing; a rate that RX_CFG.RATE no longer accepts puts it in
SEARCH (R325). -/
def rxWake (d : Dev) (now n : Nat) (ready : Bool) : Dev :=
  if d.domOn 8 && ready && d.rxEn n then
    d.updPort n (fun p =>
      if p.st == .off then { p with st := .search, s1 := { p.s1 with wt := now }, s2 := { p.s2 with wt := now } }
      else
        let p := { rxSettle p now with closing := false }
        let want := d.fld 0x30 (0x100 + 0x40 * n) 11 8
        if want != 0 && p.rate != 0 && want != p.rate then { rxForget p with st := .search, unsup := true } else p)
  else d
/-- A transmitter may begin from an instant on (R340). -/
def txStart (d : Dev) (now n : Nat) : Dev := d.updPort n (fun p => { p with txFrom := now })
/-- A transmitter stops. -/
def txStop (d : Dev) (n : Nat) : Dev := d.updPort n (fun p => { p with txRun := false, txFall := false, txResync := false })
/-- The stage changes: the ports run from READY on (R325, R335). -/
def streamStage (d : Dev) (now : Nat) (st : Stage) : Dev :=
  let was := decide (4 ≤ d.stage.rank)
  let will := decide (4 ≤ st.rank)
  if was && !will then d.each (List.range 8) (fun d n => (d.rxClose now n).txStop n)
  else if !was && will then d.each (List.range 8) (fun d n => ((d.rxWake now n true).rxLatCheck now).txStart now n)
  else d

end Dev
end Sys2Proof.Machine
end

