-- ==== Sys2Proof/Machine/Trip.lean ====
section
/-! DEFINITION. Hull's shared decisions: holds, causes, device trips, node faults with their string actions,
exhausted strings, and the change of stage (chapters 04, 06 and 15). -/

namespace Sys2Proof.Machine

/-- A downstream control word (Table 3.4). -/
def ctlWord (op arg : Nat) : Nat := 0x800000 + op % 64 * 65536 + arg % 65536

namespace Dev

/-- The safe state in force on a unit: its hold, the OFF of a device trip, or the disarm state of an unheld
unit (R29, R379, R393). -/
def effective (d : Dev) (u : Nat) : Hold :=
  let h := d.holdOf u
  let t : Hold := if d.hull.trip then .off else .none
  let e : Hold := if h != .none then .none else if d.hull.disarm == .zero && isLeg u then .off else d.hull.disarm
  let m : Hold := if t.rank < e.rank then e else t
  if h.rank < m.rank then m else h
/-- A cell is in service (R122); one whose hold was cleared is again from the block boundary on (R377). -/
def inSvc (d : Dev) (k : Nat) : Bool :=
  decide (k < 48) && (d.strOf k).isSome && (d.lk k).st == .active && d.effective k == .none && (d.ch k).mode != .held
/-- A unit, cell or leg, that may modulate. -/
def unitOn (d : Dev) (u : Nat) : Bool :=
  d.inTopo u && (d.lk u).st == .active && d.effective u == .none
/-- N_svc of a string (R122). -/
def nSvcOf (d : Dev) (s : Nat) : Nat := ((d.strCells s).filter d.inSvc).length
/-- U_MAX of a unit's page. -/
def uMax (d : Dev) (u : Nat) : Nat := d.fld (chordPage u) 0x30 31 16
/-- The smallest U_MAX of the pages that hold a string's cells (R164). -/
def strUMax (d : Dev) (s : Nat) : Nat := (d.strCells s).foldl (fun a k => min a (d.uMax k)) 0x7FFF
/-- N_min of a string (R164). -/
def nMin (d : Dev) (s : Nat) : Nat :=
  if d.profC then d.strCount s
  else
    let u := d.strUMax s
    if u = 0 then d.strCount s
    else (d.strCount s * d.fld 0x1E (0x80 + 0x20 * s) 31 16 + u - 1) / u
/-- The redundancy margin (R164). -/
def margin (d : Dev) (s : Nat) : Int := (d.nSvcOf s : Int) - d.nMin s

/-- BRK_TRIP is asserted (R28, R380). -/
def brkTrip (d : Dev) : Bool :=
  d.boot.armed && (d.hull.safeN || (d.hull.cause &&& d.fld 2 0x20 27 16) != 0)
/-- FAULT_N is asserted (R382). -/
def faultN (d : Dev) : Bool :=
  !d.boot.armed || decide (d.stage.rank < 4) || (d.hull.cause &&& d.fld 2 0x20 11 0) != 0
/-- The level driven on BRK_TRIP: none until Hull is armed and while a power-on reset holds (R380, R435, Table 18.10). -/
def brkPin (d : Dev) : Option Bool := if d.boot.armed && !d.boot.por then some d.brkTrip else none
/-- The HULL trigger where BRK_TRIP or FAULT_N has become asserted since an earlier state (Table 12.5). -/
def pinTrig (d : Dev) (old : Dev) (now : Nat) : Dev :=
  if (d.brkTrip && !old.brkTrip) || (d.faultN && !old.faultN) then d.trigger now 6 255 now else d

/-- Queues a control word on a link in a state that carries control words (R74, Table 3.12). -/
def queueCtl (d : Dev) (u w : Nat) : Dev :=
  if (d.lk u).st == .standby || (d.lk u).st == .active then d.updLink u (fun l => { l with ctlQ := l.ctlQ ++ [w] }) else d
/-- Sends a Hull safe state to a unit in the next two subframes (R103). -/
def sendSafe (d : Dev) (u : Nat) (h : Hold) : Dev :=
  (d.updLink u (fun l => { l with safeQ := some (h.code, 2), txQ := [], patQ := [], repQ := [] })).updChord u
    (fun c => { c with mode := .held, legA := { carry := c.legA.carry }, legB := { carry := c.legB.carry } })
/-- A running off-state run ends ABORTED; steps not done read NOT_TESTED (R253). -/
def osAbort (d : Dev) (now : Nat) : Dev :=
  if d.diag.os.running then
    (d.endCmd now d.diag.os.slot stAborted).modDiag (fun g => { g with os := { g.os with
      running := false, aborted := true, inj := [], todo := [], serial := [] } })
  else d
/-- A running pilot run ends ABORTED; no estimate is updated (R259). -/
def ptAbort (d : Dev) (now : Nat) : Dev :=
  if d.diag.pt.running then
    (d.endCmd now d.diag.pt.slot stAborted).modDiag (fun g => { g with pt := { g.pt with running := false, aborted := true, tone := 0 } })
  else d
/-- The diagnostic runs that a Hull action on a unit ends (R253, R259). -/
def diagHit (d : Dev) (now u : Nat) (h : Hold) : Dev :=
  let d := if d.diag.os.running && d.diag.os.links.contains u && (h == .zero || h == .bypass) then d.osAbort now else d
  if d.diag.pt.running && d.diag.pt.cell = u then d.ptAbort now else d
/-- A running precharge ends; the cells still charging are told to stop (R114). -/
def preEnd (d : Dev) (now : Nat) (p : Pre) (status : Nat) : Dev :=
  let d := if status = stDone then d else d.each p.left (fun d k => d.queueCtl k (ctlWord 0x02 0))
  ({ d with pre := d.pre.filter (fun q => q.slot != p.slot) }).endCmd now p.slot status
/-- Ends the precharges that selected a cell. -/
def preHit (d : Dev) (now u status : Nat) : Dev :=
  d.pre.foldl (fun d p => if p.cells.contains u then d.preEnd now p status else d) d
/-- The WITHDRAW bit of a cell that leaves service clears (R167). -/
def withdrawClear (d : Dev) (k : Nat) : Dev :=
  match d.strCfgOf k with
  | some s =>
    let p := k - d.strFirst s
    if !d.inSvc k && d.flag 0x1E (0x8C + 0x20 * s) p then
      d.wr 0x1E (0x8C + 0x20 * s) (setBit (d.rd 0x1E (0x8C + 0x20 * s)) p false)
    else d
  | none => d
/-- A change of the safe state in force reaches a unit (R103, R114). -/
def safeChange (d : Dev) (now u : Nat) (before : Hold) : Dev :=
  let after := d.effective u
  if after != .none && after != before then
    ((((d.preHit now u stAborted).diagHit now u after).sendSafe u after).withdrawClear u).trigger now 6 u now
  else d

/-- Latches a cause, its event and its log entry, and the first cause; ts is the instant of the cause (R13, R378). -/
def latchBit (d : Dev) (now n : Nat) (ts : Nat := now) : Dev :=
  let old := d
  let d := if d.hull.cause = 0 then d.modHull (fun h => { h with first := 2 ^ 31 + n, ts := ts }) else d
  ((d.modHull (fun h => { h with cause := setBit h.cause n true })).raiseLog ts 2 n).pinTrig old now
/-- Causes latched in one clock, where none was latched before it, are taken in ascending order: the first is the
lowest (R378). -/
def firstLowest (d old : Dev) : Dev :=
  if old.hull.cause = 0 then
    match onBits 12 d.hull.cause with
    | n :: _ => d.modHull (fun h => { h with first := 2 ^ 31 + n })
    | [] => d
  else d

/-- Places a hold unless the one in force is as severe; a leg is never held in BYPASS (R29, R375). -/
def placeRaw (d : Dev) (now u : Nat) (h : Hold) : Dev :=
  let h : Hold := if isLeg u && h == .bypass then .off else h
  if h.rank ≤ (d.holdOf u).rank then d
  else
    let before := d.effective u
    let d := d.modHull (fun x => { x with hold := tset Hold.none x.hold u h })
    (d.raiseLog now 2 15 u).safeChange now u before

/-- The more severe of two holds (R29). -/
def maxHold (a b : Hold) : Hold := if a.rank < b.rank then b else a
/-- A fault's decision of a hold, which outlasts the CLRs of its block (R394). -/
def noteFault (d : Dev) (now u : Nat) (h : Hold) : Dev :=
  let h : Hold := if isLeg u && h == .bypass then .off else h
  let f := tget (0, Hold.none) d.hull.fresh u
  d.modHull (fun x => { x with
    fresh := tset (0, Hold.none) x.fresh u (now / blockNs, if f.1 = now / blockNs then maxHold f.2 h else h) })
/-- A fault places a hold. -/
def faultPlace (d : Dev) (now u : Nat) (h : Hold) : Dev := (d.noteFault now u h).placeRaw now u h
/-- The hold that a fault decided on a unit in the present block (R394). -/
def freshHold (d : Dev) (now u : Nat) : Hold :=
  let f := tget (0, Hold.none) d.hull.fresh u
  if f.1 = now / blockNs then f.2 else .none

/-- A string's redundancy is exhausted: REDUND_LOW where the margin falls to it at once (R164), EXH, and OFF holds on its cells; STR_FLAG.EXH stays 0 before the string's
supervision has begun (R112, R165). DEDUCED [75]. -/
def exhaust (d : Dev) (now s : Nat) : Dev :=
  let v0 := d.vs s
  let falls := d.stage == .run && d.strEn s && v0.watch && !v0.low
  let d := (d.latchBit now 3).updStr s (fun v => { v with exh := v.exh || v.watch, watch := false, low := v.low || falls })
  let d := if falls then d.raise 0x1E 3 else d
  (d.raise 0x1E 4).each (d.strCells s) (fun d k => d.faultPlace now k .off)

/-- Re-evaluates a string at a change of N_svc, once its supervision has begun (R164, R165). -/
def svcCheck (d : Dev) (now s : Nat) : Dev :=
  if d.stage == .run && d.strEn s && (d.vs s).watch then
    let low := decide (d.margin s ≤ 0)
    let d' := d.updStr s (fun v => { v with low := low })
    let d' := if low && !(d.vs s).low then d'.raise 0x1E 3 else d'
    if d.nSvcOf s < d.nMin s then d'.exhaust now s else d'
  else d
def svcCheckOf (d : Dev) (now u : Nat) : Dev :=
  match d.strOf u with
  | some s => if u < 48 then d.svcCheck now s else d
  | none => d
/-- Places a hold and re-evaluates the unit's string. -/
def place (d : Dev) (now u : Nat) (h : Hold) : Dev :=
  (d.placeRaw now u h).svcCheckOf now u

/-- The decision of a node fault: its log entry, the cause NODE or MODEL, DEV:NODE_FAULT, and the trigger with the
stamp of its cause (R13, R112, R120, R394, Tables 12.5 and 15.5). DEDUCED [19]: a model trip latches MODEL. -/
def faultDecide (d : Dev) (now u code ts : Nat) (cause : Nat := 0) : Dev :=
  let d := d.noteFault now u (if d.profC || code = 9 then .off else .bypass)
  (((d.preHit now u stHwFault).raiseLog ts 0 8 u code).latchBit now cause ts).trigger now 5 u ts
/-- A node fault with the action of DESAT and the string action of R112. -/
def nodeFault (d : Dev) (now u code ts : Nat) (cause : Nat := 0) : Dev :=
  let d := d.faultDecide now u code ts cause
  if isLeg u then d.place now u .off
  else
    let h : Hold := if d.profC then .off else .bypass
    match d.strOf u with
    | none => d.place now u h
    | some s =>
      if d.profC then d.exhaust now s
      else
        let d := d.place now u h
        if d.flag 0 0x60 0 then (d.each (d.strCells s) (fun d k => d.faultPlace now k .off)).svcCheck now s else d
/-- The same fault where the string current is no longer measured: the string is exhausted (R166). -/
def lostFault (d : Dev) (now u : Nat) : Dev :=
  let d := d.nodeFault now u 0 now
  match d.strOf u with
  | some s => if u < 48 && decide (d.curCell s = u) && !(d.vs s).exh then d.exhaust now s else d
  | none => d

/-- Relocks every expert region (R370). -/
def relock (d : Dev) : Dev := { d with pages := (List.range 64).foldl (fun m p => tupd {} m p (fun q => { q with unlocked := false })) d.pages }
/-- DEV:STAGE changes (R369, R370). -/
def setStage (d : Dev) (now : Nat) (st : Stage) (why : Nat) : Dev :=
  let was := d
  let old := d.boot.stage
  let d := { (d.streamStage now st) with vLat := false }
  let d := (d.modBoot (fun b => { b with stage := st, last := old, why := why, warm := false })).pinTrig was now
  let d := if decide (st.rank < old.rank) || st == .cooldown || st == .halt then d.relock else d
  let d := d.raiseLog now 0 0
  let d := if st == .run then
      (d.each (List.range 4) (fun d s => d.updStr s (fun v => { v with
        watch := false, exh := false, low := false, prevE := [], light := 0, isLight := false }))).raiseLog now 2 12
    else d
  if old == .run then d.raiseLog now 2 13 else d

/-- The commands that use a domain end ABORTED, and what they were doing stops. -/
def abortDomain (d : Dev) (now pd : Nat) : Dev :=
  if pd = 2 then
    (List.range 64).foldl (fun d c =>
      match (d.cx c).load with
      | some (n, _) => (d.endCmd now n stAborted).updCtx c (fun x => { x with load := none, loadVals := [] })
      | none => d) d
  else if pd = 5 then
    let d := (List.range 8).foldl (fun d b =>
      match tget none d.prism.loading b with
      | some (n, _, _, _) =>
        (d.endCmd now n stAborted).modPrism (fun p => { p with loading := tset none p.loading b none })
      | none => d) d
    (List.range 16).foldl (fun d k =>
      let c := d.chan k
      let d := match c.fade with
        | some f => d.endCmd now f.slot stAborted
        | none => d
      let d := match c.pend with
        | some (n, _, _) => d.endCmd now n stAborted
        | none => d
      d.updChan k (fun c => { c with fade := none, pend := none })) d
  else if pd = 7 then
    let d := d.cap.reads.foldl (fun d r => d.endCmd now r.slot stAborted) d
    let d := d.cap.storeWr.foldl (fun d r => d.endCmd now r.1 stAborted) d
    d.modCap (fun c => { c with reads := [], storeWr := [] })
  else if pd = 9 then
    let d := match d.nvm.writing with
      | some (_, n) => (d.endCmd now n stAborted).modNvm (fun v => { v with writing := none })
      | none => d
    (d.osAbort now).ptAbort now
  else d

/-- A domain starts to turn off by the device's own action: its REQ bit clears (R362, R363). -/
def turnOff (d : Dev) (pd : Nat) : Dev :=
  let d := d.wr 1 0x20 (setBit (d.rd 1 0x20) pd false)
  if d.domOn pd || bit d.pwr.trans pd then
    d.modPwr (fun p => { p with trans := setBit p.trans pd true, rising := setBit p.rising pd false })
  else d
/-- A domain starts to turn on (R362). -/
def turnOn (d : Dev) (pd : Nat) : Dev :=
  if d.domOn pd then d
  else (d.modPwr (fun p => { p with trans := setBit p.trans pd true, rising := setBit p.rising pd true })).modTherm
    (fun t => { t with shed := setBit t.shed pd false })

/-- Entry to COOLDOWN (R388). -/
def cooldown (d : Dev) (now : Nat) : Dev :=
  let d := (d.setStage now .cooldown 4).modHull (fun h => { h with cool := 0 })
  d.each [9, 8, 6, 5, 4, 3, 2] (fun d pd => (d.abortDomain now pd).turnOff pd)

/-- A running CMD_ARM or CMD_DISARM is aborted (R391, R393). DEDUCED: at the decision [16]. -/
def armAbort (d : Dev) (now : Nat) : Dev :=
  let d := match d.boot.arming with
    | some (_, n) => d.endCmd now n stAborted
    | none => d
  let d := match d.boot.disarming with
    | some n => d.endCmd now n stAborted
    | none => d
  d.modBoot (fun b => { b with arming := none, disarming := none })
/-- A device trip: every cell and leg in OFF, which is no hold, and the fall of the stage (R379, R388). -/
def deviceTrip (d : Dev) (now : Nat) (tsd : Bool) : Dev :=
  let before := allUnits.map d.effective
  let d := (d.modHull (fun h => { h with trip := true })).armAbort now
  let d := d.pre.foldl (fun d p => d.preEnd now p stAborted) d
  let d := (allUnits.zip before).foldl (fun d ub => d.safeChange now ub.1 ub.2) d
  match d.stage with
  | .reset => if tsd then d.modHull (fun h => { h with tsdReset := true }) else d
  | .halt => d
  | .cooldown => if tsd then d.modHull (fun h => { h with cool := 0 }) else d
  | .run => if tsd then d.cooldown now else d.setStage now .ready 3
  | .safe => if tsd then d.cooldown now else d
  | .aware => if tsd then d.cooldown now else d
  | .ready => if tsd then d.cooldown now else d
/-- Latches a cause and takes its action where that is a device trip (Table 15.5). -/
def latch (d : Dev) (now n : Nat) : Dev :=
  let d := d.latchBit now n
  if [4, 5, 6, 7, 8, 9, 10].contains n then d.deviceTrip now (n == 7) else d

/-- CONSENT_OK (R386). -/
def consentOk (d : Dev) (now : Nat) : Bool :=
  d.flag 2 0x20 31 && (match d.hull.consent with
    | some t => decide (now < t)
    | none => false)

end Dev
end Sys2Proof.Machine
end

