-- ==== Sys2Proof/Machine/Facet.lean ====
section
/-! DEFINITION. Facet links (chapter 03): the downstream scheduler, upstream parity and block statuses, the
management channel, the node configuration, and the entry to LOST. -/

namespace Sys2Proof.Machine

/-- A management-channel message with its CRC (R78). -/
def mkMsg (ty seq data : Nat) : Nat :=
  let m := ty * 2 ^ 44 + seq % 16 * 2 ^ 40 + data % 2 ^ 32 * 256
  m + crc8 m

namespace Dev

/-- The link is in a state in which it carries control and management words (Table 3.12). -/
def linked (d : Dev) (k : Nat) : Bool :=
  match (d.lk k).st with
  | .align => true
  | .standby => true
  | .active => true
  | .down => false
  | .hello => false
  | .lost => false
  | .mismatch => false
/-- ASYM of a link as written, ticks (R81). -/
def asym (d : Dev) (k : Nat) : Int := sx 16 (d.rd (facetPage k) (0x400 + 0x10 * unitIdx k))
/-- The upstream delay of a link in 1/16 tick; a new ASYM counts from the next echo (R81, Table 3.15). -/
def upDelay (d : Dev) (k : Nat) : Int := ((d.lk k).delay : Int) - 16 * (d.lk k).asymF

/-- V of the next downstream subframe of a link (R61, R103). DEDUCED: the cleared unit stays under V = 1
until it restarts at the block boundary [17]. -/
def vBit (d : Dev) (k : Nat) : Bool :=
  !((d.lk k).st == .active && d.effective k == .none && (d.lk k).safeQ.isNone && (d.ch k).mode != .held)
/-- Pattern hold of a cell (R141). -/
def patHeld (d : Dev) (k : Nat) : Bool := !isLeg k && ((d.lk k).st != .active || d.vBit k || (d.ch k).mode == .retreat)
/-- CMD_STATE of the downstream block status (Table 3.7). -/
def cmdState (d : Dev) (k : Nat) : Nat :=
  match d.effective k with
  | .none => if d.vBit k then 1 else 0
  | h => h.code

/-- A trim as it stands in a TRIM word (Table 4.2). -/
def trimItem (d : Dev) (k p : Nat) (on : Bool) : Nat × Nat :=
  let r := d.rd (facetPage k) (0x800 + 0x40 * unitIdx k + 4 * p)
  (0x20, p * 4096 + b2n on * 2048 + (if on then bits r 26 16 else bits r 10 0))
/-- The node configuration a link is commanded (R100). -/
def nodeCfg (d : Dev) (k : Nat) : List (Nat × Nat) :=
  let dead := d.fld (chordPage k) 0x20 16 0
  let sc := d.rd (facetPage k) 0x24
  let common := [(0x16, dead % 65536), (0x17, dead / 65536), (0x18, d.fld 0x20 0x20 15 0),
    (0x19, bits sc 12 8 * 256 + bits sc 4 0)]
  let trims := (List.range (positions k)).flatMap (fun p => [d.trimItem k p true, d.trimItem k p false])
  if isLeg k then (0x11, d.fld 0 0x64 15 0) :: common ++ trims
  else
    let role := match d.strCfgOf k with
      | some s => b2n (decide (d.curCell s = k))
      | none => 0
    [(0x10, b2n d.profC), (0x11, d.fld 0 0x64 15 0), (0x12, d.fld 0 0x68 31 16), (0x13, d.fld 0 0x68 15 0),
      (0x14, d.fld 0 0x6C 7 0), (0x15, d.fld 0 0x6C 15 8)] ++ common ++ [(0x1A, role)] ++ trims
/-- CFG_CRC of the configuration a link is commanded; 0 in the stages below AWARE (Table 3.7, R100, R368). -/
def cfgCrc (d : Dev) (k : Nat) : Nat :=
  if d.stage.rank < Stage.aware.rank then 0
  else crc32 ((d.nodeCfg k).flatMap (fun i => [i.1, i.2 / 256, i.2 % 256]))

/-- Whether an item is what the link has last been sent. -/
def cfgSent (l : Link) (i : Nat × Nat) : Bool :=
  l.cfg.any (fun j => decide (j = i))
/-- The key under which an item replaces an earlier one: its opcode, and for TRIM its position and edge. -/
def cfgKey (i : Nat × Nat) : Nat := if i.1 = 0x20 then 0x20 * 65536 + i.2 / 2048 else i.1
/-- Sends configuration items on a link that is in ALIGN or STANDBY (R98). -/
def sendCfg (d : Dev) (k : Nat) (items : List (Nat × Nat)) : Dev :=
  match (d.lk k).st with
  | .align | .standby =>
    d.updLink k (fun l => { l with
      ctlQ := l.ctlQ ++ items.map (fun i => ctlWord i.1 i.2)
      cfg := l.cfg.filter (fun j => !items.any (fun i => cfgKey i == cfgKey j)) ++ items })
  | .down | .hello | .active | .lost | .mismatch => d
/-- Sends what differs from what a link has been sent; DEAD_LO and DEAD_HI go together (R98, Table 4.2). -/
def syncCfg (d : Dev) (k : Nat) : Dev :=
  let l := d.lk k
  let items := d.nodeCfg k
  let deadNew := items.any (fun i => (i.1 == 0x16 || i.1 == 0x17) && !cfgSent l i)
  d.sendCfg k (items.filter (fun i => !cfgSent l i || (deadNew && (i.1 == 0x16 || i.1 == 0x17))))

/-- Queues a management-channel message; the SEQ counter advances (R78). -/
def queueMsg (d : Dev) (k ty data : Nat) : Dev :=
  d.updLink k (fun l => { l with msgQ := l.msgQ ++ [mkMsg ty l.msgSeq data], msgSeq := (l.msgSeq + 1) % 16 })
/-- Sends DELAY_SET with the present delay and waits for its acknowledgement (R83). -/
def sendDelay (d : Dev) (k : Nat) : Dev :=
  let l := d.lk k
  (d.queueMsg k 0x5 (l.delay % 2 ^ 24 * 256)).updLink k (fun x => { x with dsetSeq := some l.msgSeq, dsetAck := false })
/-- ALIGNED clears, and a new alignment begins (R77, R82). -/
def alignStep (d : Dev) (now k : Nat) : Dev :=
  if (d.lk k).aligned then (d.updLink k (fun l => { l with aligned := false })).raiseLog now (facetPage k) 4 k else d
/-- ALIGNED sets once the DELAY_SET in force is acknowledged and the node reports ALIGNED (R83). -/
def alignSet (d : Dev) (k : Nat) : Dev :=
  let l := d.lk k
  if d.linked k && l.dsetSeq.isSome && l.dsetAck && l.nodeAligned then d.updLink k (fun x => { x with aligned := true }) else d

/-- A link leaves STANDBY, or its node may have changed: a run that selects it ends, and its results read 0 where
it enters DOWN, HELLO or LOST (R253, R257). -/
def osLink (d : Dev) (now k : Nat) (clear : Bool) : Dev :=
  let d := if d.diag.os.running && d.diag.os.links.contains k then d.osAbort now else d
  if clear then d.modDiag (fun g => { g with res := tset 0 g.res k 0 }) else d
/-- A link enters a state in which it carries idle words only, and no message of the management channel (Table 3.12).
DESIGN CHOICE [84]: ALIGNED and CRC_MATCH read 0 there, and neither raises its event. -/
def linkIdle (d : Dev) (now k : Nat) (st : LinkState) : Dev :=
  (d.osLink now k (st != .mismatch)).updLink k (fun l => { l with
    st := st, aligned := false, safeQ := none, ctlQ := [], txQ := [], patQ := [], repQ := [], mgtQ := [],
    msgQ := [], msgCur := 0, lossUp := false,
    hRun := 0, hPrev := none, hId := none, hLo := none, hHi := none, admitted := false, admitSeq := none,
    dsetSeq := none, dsetAck := false, echoReq := none, nodeAligned := false, upCrc := none, crcMatch := false, cfg := [] })
/-- Entry to LOST: LOST_MAP, the event, and the node fault (R87). -/
def enterLost (d : Dev) (now k : Nat) : Dev :=
  let p := facetPage k
  let d := d.linkIdle now k .lost
  let d := { d with lostMap := tupd 0 d.lostMap (p - 0x10) (fun m => setBit m (unitIdx k) true) }
  (d.raiseLog now p 2 k).lostFault now k
/-- LOST where the link's state allows it (Table 3.13). -/
def maybeLost (d : Dev) (now k : Nat) : Dev := if d.linked k then d.enterLost now k else d

/-- Adds to a leg's carry, cut at CARRY_CAP (R132). -/
def addCarry (d : Dev) (u : Nat) (legB : Bool) (amt : Int) : Dev :=
  let cap : Int := (d.fld (chordPage u) 0x2C 31 16 : Nat) * 16
  let c := (if legB then (d.ch u).legB.carry else (d.ch u).legA.carry) + amt
  let c' := clampI (-cap) cap c
  let d := d.updChord u (fun x =>
    if legB then { x with legB := { x.legB with carry := c' } } else { x with legA := { x.legA with carry := c' } })
  if c' = c then d
  else (d.updChord u (fun x => { x with lost := sat1 16 x.lost })).raise (chordPage u) 4
/-- Applies a function to one leg of a unit. -/
def updLeg (d : Dev) (u : Nat) (legB : Bool) (f : LegSt → LegSt) : Dev :=
  d.updChord u (fun x => if legB then { x with legB := f x.legB } else { x with legA := f x.legA })
def legOf (d : Dev) (u : Nat) (legB : Bool) : LegSt := if legB then (d.ch u).legB else (d.ch u).legA
/-- A pulse from T1 to T2 that is not sent: its high time is owed, or its low time was added (R131, R132). -/
def pulseLost (d : Dev) (u : Nat) (legB : Bool) (dir : Bool) (t1 t2 : Nat) : Dev :=
  let len : Int := (t2 : Int) - t1
  (d.addCarry u legB (if dir then len else -len)).updChord u (fun x => { x with drop := sat1 16 x.drop })

/-- A schedule-trace entry enters the trace at its hand-over instant (R315, Table 12.9). -/
def pushTrace (d : Dev) (hov num : Nat) : Dev := d.pushFrame 3 { t := hov, bytes := bytesLE 16 num }
/-- The trace entry of a transition or of a withheld pair (Table 12.9). -/
def traceTx (hov edge u kind : Nat) (legB dir late delayed single : Bool) : Nat :=
  edge % 2 ^ 68 + u * 2 ^ 69 + b2n legB * 2 ^ 75 + b2n dir * 2 ^ 76 + kind * 2 ^ 77 + b2n late * 2 ^ 81 +
    b2n delayed * 2 ^ 82 + b2n single * 2 ^ 83 + hov % 2 ^ 32 * 2 ^ 96
/-- The trace entry of a pattern word. -/
def traceWord (hov u kind value : Nat) : Nat := (16 * hov) % 2 ^ 68 + u * 2 ^ 69 + kind * 2 ^ 77 + value % 2 ^ 32 * 2 ^ 96

/-- The downstream delay enters the lead of R71 in 1/16 tick: OFFSET is at least 640 ns plus the delay. -/
def leadOk (d : Dev) (k p edge : Nat) : Bool := decide (16 * (16 * p + 10240) + (d.lk k).delay ≤ 16 * edge)
/-- Withholds the first copies that no usable subframe is left for, each with the transition that closes its
pulse (R73). -/
def withholdN : Nat → Dev → Nat → Nat → Dev
  | 0, d, _, _ => d
  | n + 1, d, k, p =>
    match (d.lk k).txQ.find? (fun t => !d.leadOk k p t.edge) with
    | none => d
    | some t =>
      let rest := (d.lk k).txQ.filter (fun x => x != t)
      let legB := t.leg == 1
      let closer := (rest.filter (fun x => x.leg == t.leg && decide (t.edge ≤ x.edge))).head?
      let d := d.updLink k (fun l => { l with
        txQ := match closer with
          | some c => rest.filter (fun x => x != c)
          | none => rest
        withheld := sat1 16 l.withheld })
      let d := (d.raiseLog p (facetPage k) 5 k).pushTrace p (traceTx p t.edge k 6 legB t.dir false false false)
      let d := match closer with
        | some c => d.pulseLost k legB t.dir t.edge c.edge
        | none => d.updLeg k legB (fun g => { g with skip := some (t.edge, t.dir) })
      withholdN n d k p
/-- The trace entry of a transition that proves to be sent once shows SINGLE (Table 12.9). -/
def singleMark (k : Nat) (t : Tx) (f : Frame) : Frame :=
  let w := fromLE f.bytes
  if w % 2 ^ 68 == t.edge % 2 ^ 68 && bits w 74 69 == k && bits w 75 75 == t.leg && bits w 80 77 != 6 then
    { f with bytes := bytesLE 16 (setBit w 83 true) }
  else f
def traceSingle (d : Dev) (k : Nat) (t : Tx) : Dev :=
  d.updRing 3 (fun r => { r with
    live := r.live.map (singleMark k t), opened := r.opened.map (fun o => { o with frames := o.frames.map (singleMark k t) })
    recs := r.recs.map (fun o => { o with frames := o.frames.map (singleMark k t) }) })
/-- Repeat copies with no usable subframe left are given up and counted as SINGLE (R72). -/
def dropRepeats (d : Dev) (k p : Nat) : Dev :=
  let l := d.lk k
  let late := l.repQ.filter (fun t => !d.leadOk k p t.edge)
  (late.foldl (fun d t => d.traceSingle k t) d).updLink k (fun l => { l with repQ := l.repQ.filter (fun t => d.leadOk k p t.edge), single := satN 16 l.single late.length })
/-- The earliest of the queued transitions that has come inside the horizon. -/
def earliest (p : Nat) (q : List Tx) : Option Tx :=
  (q.filter (fun t => decide (t.edge ≤ 16 * p + 1048575))).foldl
    (fun a t => match a with
      | none => some t
      | some b => if t.edge < b.edge then some t else some b) none
/-- A leg-transition word sent at P (Table 3.2, R64). -/
def txWord (p : Nat) (t : Tx) : Nat := t.leg % 2 * 2 ^ 21 + b2n t.dir * 2 ^ 20 + (t.edge - 16 * p)
def idleWord : Nat := 0xC00000
def isPhase (w : Nat) : Bool := bits w 23 20 == 4
def isPeriod (w : Nat) : Bool := bits w 23 20 == 5
def isEchoReq (w : Nat) : Bool := bits w 23 18 == 0x31

/-- What the modulator notes of a pattern word that leaves: the phase and the period sent, and, for a cell that
starts, the instant two DAB periods after the PHASE word's subframe (R137, R141). -/
def patSent (d : Dev) (k p w : Nat) : Dev :=
  if isPhase w then
    d.updChord k (fun c => { c with
      phSent := w % 2 ^ 20
      startAt := if c.mode == .starting && c.startAt.isNone then some (16 * (p + 640) + 4 * c.perSent) else c.startAt })
  else if isPeriod w then d.updChord k (fun c => { c with perSent := w % 2 ^ 20 })
  else d
/-- The word a link sends in the subframe at P, by the priority of R74, and the queues after it. -/
def pickWord (d : Dev) (k p : Nat) : Nat × Dev :=
  let l := d.lk k
  let act := l.st == .active
  if !d.linked k then (idleWord, d.updLink k (fun x => { x with safeQ := none }))
  else match (if l.st == .align then none else l.safeQ) with
  | some (s, n) =>
    (ctlWord 0x01 s, d.updLink k (fun x => { x with safeQ := if n ≤ 1 then none else some (s, n - 1) }))
  | none =>
    match (if l.ctlN < 12 then l.ctlQ.head? else none) with
    | some w => (w, d.updLink k (fun x => { x with ctlQ := x.ctlQ.tail, ctlN := x.ctlN + 1 }))
    | none =>
      match (if act then earliest p l.txQ else none) with
      | some t => (txWord p t, d.updLink k (fun x => { x with txQ := x.txQ.filter (fun y => y != t), repQ := x.repQ ++ [t] }))
      | none =>
        match (if act && !d.vBit k && decide (l.patAt ≤ p) then
            l.patQ.head?.filter (fun w => !(isPeriod w && decide (8 ≤ l.patN))) else none) with
        | some w =>
          let d := d.updLink k (fun x => { x with patQ := x.patQ.tail, patN := x.patN + b2n (isPeriod w) })
          (w, d.patSent k p w)
        | none =>
          match (if act then earliest p l.repQ else none) with
          | some t => (txWord p t, d.updLink k (fun x => { x with repQ := x.repQ.filter (fun y => y != t) }))
          | none =>
            match (if l.mgtN < 8 then l.mgtQ.head? else none) with
            | some w =>
              let d := d.updLink k (fun x => { x with mgtQ := x.mgtQ.tail, mgtN := x.mgtN + 1 })
              (w, if isEchoReq w then d.updLink k (fun x => { x with echoReq := some (w % 16, p) }) else d)
            | none => (idleWord, d)

/-- CMD_STATE enters the block status as its first bit leaves, in frame 108, and the CRC covers it (Table 3.7, R103).
DEDUCED [72]. -/
def cmdStateTurn (d : Dev) (k : Nat) : Dev :=
  let s := d.cmdState k
  d.updLink k (fun l =>
    let b := putBits l.dsStatus 109 108 s % 2 ^ 176
    { l with dsStatus := b + crc16 b * 2 ^ 176 })
/-- A downstream subframe of a link leaves (R58 to R61, R71 to R75, R78); no transmitter runs before Hull is armed or while
the power-on reset holds (R435, Table 18.10). -/
def doDownSub (d : Dev) (k n j : Nat) : Dev :=
  if 52 ≤ k || n < 2 || 384 ≤ j || !d.boot.armed || d.boot.por then d
  else
    let p := blockAt n + subNs * j
    let d := if (d.lk k).st == .active then (withholdN ((d.lk k).txQ.length) d k p).dropRepeats k p else d
    let v := d.vBit k
    let d := if j % 48 = 0 then
        d.updLink k (fun l => { l with msgCur := l.msgQ.headD 0, msgQ := l.msgQ.tail })
      else d
    let (w, d) := d.pickWord k p
    let d := if j = 216 then d.cmdStateTurn k else d
    let u := bit (d.lk k).msgCur (47 - j % 48)
    let c := bit (d.lk k).dsStatus (j / 2)
    let par := (ones 24 w + b2n v + b2n u + b2n c) % 2 == 1
    let f : DsFrame := { at_ := p, pre := if j = 0 then 0 else if j % 2 = 0 then 1 else 2, word := w, v := v, u := u, c := c, p := par }
    d.updLink k (fun l => { l with ds := some f })

/-- The downstream block status of block n (Table 3.7), with the CMD_STATE last sent until frame 108 brings the new one. -/
def mkStatus (d : Dev) (k n : Nat) : Nat :=
  let b := blockAt n % 2 ^ 64 + d.cfgCrc k * 2 ^ 64 + k * 2 ^ 96 + d.stage.code * 2 ^ 104 + bits (d.lk k).dsStatus 111 108 * 2 ^ 108
  b + crc16 b * 2 ^ 176

/-- Two preambles B stand 192 frames apart (R86). DESIGN CHOICE [84]: to within half a subframe. -/
def blockApart (edge b : Nat) : Bool := decide (b + 16 * 245440 < edge) && decide (edge < b + 16 * 246080)
/-- An upstream subframe arrives; a block without its preamble B ends a run of R77 (R62, R75, R77, R78, R80, R86). -/
def doUpSub (d : Dev) (now k edge pre word : Nat) (v u c p : Bool) : Dev :=
  if 52 ≤ k then d
  else
    let word := word % 2 ^ 24
    let ok := (ones 24 word + b2n v + b2n u + b2n c + b2n p) % 2 == 0
    let d := d.updLink k (fun l =>
      let l := { l with lastPre := some edge, seen := true, lossUp := false }
      if pre = 0 then
        let set := match l.hId, l.hLo, l.hHi with
          | some (t, r), some lo, some hi => some (t, r, lo, hi)
          | _, _, _ => none
        let run := match set with
          | none => 0
          | some x => if l.hPrev = some x then min 2 (l.hRun + 1) else 1
        { l with
          ntBad := if l.lastB.any (fun b => decide (edge < b + 16 * 368640)) then l.ntBad else 0
          bRun := if l.lastB.any (blockApart edge) then min 2 (l.bRun + 1) else 1
          lastB := some edge, rxPos := 0, csBits := 0, csTaken := 0, csFirst := none, csB := true, parBlk := 0
          hPrev := set, hRun := run, hId := none, hLo := none, hHi := none }
      else { l with rxPos := l.rxPos + 1 })
    if ok then
      d.updLink k (fun l =>
        let f := l.rxPos / 2
        let l := { l with nodeV := v, rxWord := some word, uBits := (l.uBits * 2 + b2n u) % 2 ^ 48 }
        if l.rxPos % 2 = 0 then { l with csFirst := some c }
        else if l.csFirst = some c then
          { l with csBits := setBit l.csBits f c, csTaken := setBit l.csTaken f true, csFirst := none }
        else { l with csFirst := none })
    else
      let d := d.updLink k (fun l => { l with
        parErr := sat1 32 l.parErr, parBlk := l.parBlk + 1, csFirst := none, rxWord := none, uBits := 0 })
      if d.linked k && decide ((d.lk k).parBlk = d.fld (facetPage k) 0x20 7 0) then d.enterLost now k else d

/-- No valid upstream preamble for LOSS_SF subframes (R86): HELLO ends at the next block boundary. -/
def doLinkLoss (d : Dev) (now k : Nat) : Dev :=
  if 52 ≤ k then d
  else if (d.lk k).st == .hello then d.updLink k (fun l => { l with lossUp := true })
  else d.maybeLost now k

/-- A hello message (R86): a HELLO_ID from a node that was already admitted sends the link to LOST. -/
def doHello (d : Dev) (now k : Nat) (f : Link → Link) (isId : Bool) : Dev :=
  if 52 ≤ k then d
  else if isId && d.linked k then d.enterLost now k
  else d.updLink k f

/-- An ACK of ADMIT or of the DELAY_SET in force (R83, R86). -/
def doAck (d : Dev) (k ty seq : Nat) : Dev :=
  if 52 ≤ k then d
  else
    let d := d.updLink k (fun l =>
      if ty = 0x4 && l.admitSeq = some seq && l.st == .hello then { l with admitted := true }
      else if ty = 0x5 && l.dsetSeq = some seq then { l with dsetAck := true }
      else l)
    d.alignSet k

/-- The three temperatures and the other fields of a valid upstream status (Table 3.8). -/
def takeStatus (l : Link) (now s crc : Nat) : Link :=
  { l with
    bsBad := 0, bsStale := false, dsLate := bits s 143 136, dsPar := bits s 135 128, supLow := bits s 127 116
    temps := (now, sx 12 (bits s 91 80), sx 12 (bits s 103 92), sx 12 (bits s 115 104)) :: l.temps.take 7
    nodeAligned := bit s 73, nodeState := bits s 71 70, upCrc := some (bits s 63 32)
    crcMatch := decide (bits s 63 32 = crc) }
/-- NODE_TIME against the arrival of the upstream preamble B less the upstream delay (R77): more than 4 ns.
DESIGN CHOICE [84]: `doUpStatus` compares and counts on an aligned link alone. -/
def nodeTimeBad (d : Dev) (k s edge : Nat) : Bool :=
  let diff := sx 40 (ux 40 (16 * (edge : Int) - d.upDelay k - 256 * (bits s 31 0 : Nat)))
  decide (1024 < diff ∨ diff < -1024)

/-- The two CFG_CRCs come to differ: CRC_MATCH clears, the configuration is sent again, and on an ACTIVE link it is a
node fault (R88). -/
def crcLost (d : Dev) (now k : Nat) : Dev :=
  let act := (d.lk k).st == .active
  let d := (d.updLink k (fun x => { x with crcMatch := false, cfg := [], crcActed := true })).raiseLog now (facetPage k) 6 k
  if act then d.nodeFault now k 0 now else d

/-- An upstream block status completes (R75 to R77, R83, R88). -/
def doUpStatus (d : Dev) (now k edge : Nat) : Dev :=
  if 52 ≤ k || !(d.lk k).csB then d
  else
    let l := d.lk k
    let s := l.csBits
    let valid := decide (l.csTaken = 2 ^ 192 - 1) && decide (crc16 s = bits s 191 176)
    let d := d.updLink k (fun x => { x with csB := false })
    if !valid then
      let d := d.updLink k (fun x => { x with bsErr := sat1 16 x.bsErr, bsBad := min 3 (x.bsBad + 1), ntBad := 0 })
      if decide ((d.lk k).bsBad = 3) && !l.bsStale then
        (d.updLink k (fun x => { x with bsStale := true })).raiseLog now (facetPage k) 7 k
      else d
    else
      let d := d.updLink k (fun x => takeStatus x now s (d.cfgCrc k))
      let d := if d.linked k && l.aligned && d.nodeTimeBad k s edge then
          if 1 ≤ l.ntBad then
            ((d.updLink k (fun x => { x with ntBad := 0 })).alignStep now k).sendDelay k
          else d.updLink k (fun x => { x with ntBad := 1 })
        else (d.updLink k (fun x => { x with ntBad := 0 })).alignSet k
      let l' := d.lk k
      if l.crcMatch && !l'.crcMatch then d.crcLost now k
      else if !l'.crcMatch && !l'.crcActed && l'.ctlQ.isEmpty && !l'.cfg.isEmpty then
        d.updLink k (fun x => { x with cfg := [], crcActed := true })
      else if l'.crcMatch then d.updLink k (fun x => { x with crcActed := false })
      else d

/-- A completed management message is discarded (R78). -/
def doUErr (d : Dev) (k : Nat) (crcBad : Bool) : Dev :=
  if 52 ≤ k then d
  else if crcBad then d.updLink k (fun l => { l with uErr := sat1 16 l.uErr, uBits := 0 })
  else d.updLink k (fun l => { l with uBits := 0 })

end Dev
end Sys2Proof.Machine
end

