-- ==== Sys2Proof/Machine/Model.lean ====
section
/-! DEFINITION. Coil, core and capacitor models (chapter 09): losses, thermal networks, the throttle law, flux
tracking, ageing and model trips. -/

namespace Sys2Proof.Machine

/-- Raw samples and registers as the reals of chapter 09: the DC-link, DC-bus and string-current full scales. -/
def rawFs (v : Rat) (fs : Nat) : Rat := v * fs / 131072
/-- A value kept at 2^-16 °C (R239); the direction of the rounding is open [7]. -/
def q16 (x : Rat) : Rat := (Config.roundAt 10 (x * 65536) : Rat) / 65536

/-- The integral trim of the throttle law (R233). -/
def lawZ (slope : Rat) (ti : Nat) (z x : Rat) : Rat :=
  clampR 0 (1 / slope) (z + x * (1 / 1000) / ti)
/-- The factor of the throttle law (R233). -/
def lawK (slope kmin : Rat) (z x : Rat) : Rat := clampR kmin 1 (1 - slope * (max x 0 + z))

/-- The mean square of harmonic h of the winding current, I_h squared (R237). -/
def harmI2 (v1 v2 delta f llk : Rat) (h : Nat) : Rat :=
  let x := v1 * v1 + v2 * v2 - 2 * v1 * v2 * Config.cosR (h * delta)
  let z := Config.piR * (h * h : Nat) * (2 * Config.piR * f * llk)
  8 * x / (z * z)
/-- The odd harmonics of R237. -/
def harmonics : List Nat := [1, 3, 5, 7, 9, 11, 13, 15]
/-- Winding loss of a block (R237). -/
def windLoss (rdc fac pfix v1 v2 delta f llk : Rat) : Rat :=
  rdc * sumR (harmonics.map (fun h => (1 + (h * f / fac) * (h * f / fac)) * harmI2 v1 v2 delta f llk h)) + pfix
/-- The sum of I_h squared (R248). -/
def sumI2 (v1 v2 delta f llk : Rat) : Rat := sumR (harmonics.map (harmI2 v1 v2 delta f llk))

/-- A coil set (Table 9.3): RDC in Ω, F_AC in Hz, PFIX in W, RTH12 and RTH2A in K/W, C1 and C2 in J/K, THR, TRIP and
INIT_OFS in °C, LLK in H, N. -/
structure CoilSet where
  rdc : Rat
  fac : Rat
  pfix : Rat
  rth12 : Rat
  rth2a : Rat
  c1 : Rat
  c2 : Rat
  thr : Rat
  trip : Rat
  ofs : Rat
  llk : Rat
  n : Rat

namespace Dev

/-- Coil set n, 1 to 4. -/
def coilSet (d : Dev) (n : Nat) : CoilSet :=
  let r := fun (o hi lo : Nat) => ((d.fld 0x34 (0x80 + 0x20 * (n - 1) + o) hi lo : Nat) : Rat)
  { rdc := r 0 23 0 / 1000000, fac := r 4 15 0 * 100, pfix := r 4 31 16 / 10
    rth12 := r 8 31 16 / 10000, rth2a := r 8 15 0 / 10000, c1 := r 12 31 16 * 10, c2 := r 12 15 0 * 10
    thr := r 16 31 20 / 8, trip := r 16 19 8 / 8, ofs := r 16 7 0 / 2
    llk := r 20 31 16 / 100000000, n := r 20 15 0 / 256 }
/-- The set of a winding and of an inductor, 0 where not modelled (R236). -/
def wset (d : Dev) (k : Nat) : Nat := d.fld 0x34 (0x100 + 0x10 * k) 14 12
def iset (d : Dev) (s : Nat) : Nat := d.fld 0x34 (0x60 + 8 * s) 10 8
/-- PD9 is on and a model is enabled (R235): 0 coil, 1 core, 2 capacitor. -/
def modelOn (d : Dev) (b : Nat) : Bool := d.domOn 9 && d.flag 0x34 0x20 b
def mSlope (d : Dev) : Rat := ((d.fld 0x34 0x28 31 16 : Nat) : Rat) / 65536
def mTi (d : Dev) : Nat := d.fld 0x34 0x28 15 0
def mKmin (d : Dev) : Rat := ((d.fld 0x34 0x2C 15 0 : Nat) : Rat) / 32768
def vfs (d : Dev) : Nat := d.fld 0x34 0x30 31 16
def bfs (d : Dev) : Nat := d.fld 0x34 0x30 15 0
def ifs (d : Dev) : Nat := d.fld 0x34 0x34 15 0

/-- The thermal manager's factor of a link (R355, R356); 1 while NODE_EN is 0. -/
def kTh (d : Dev) (u : Nat) : Rat :=
  if d.flag 5 0x20 0 then min (d.sensor (20 + 3 * u)).k (min (d.sensor (21 + 3 * u)).k (d.sensor (22 + 3 * u)).k) else 1
def kW (d : Dev) (k : Nat) : Rat := if d.modelOn 0 && d.wset k != 0 then (d.mc k).wind.k else 1
def kC (d : Dev) (k : Nat) : Rat := if d.modelOn 1 then (d.mc k).kc else 1
def kK (d : Dev) (k : Nat) : Rat := if d.modelOn 2 then (d.mc k).kk else 1
def kL (d : Dev) (s : Nat) : Rat := if d.modelOn 0 && d.iset s != 0 then (d.ind s).k else 1
/-- The throttle factor of a cell (R232). -/
def kOf (d : Dev) (k : Nat) : Rat := min (d.kTh k) (min (d.kW k) (min (d.kC k) (d.kK k)))
/-- The winding headroom, if the winding is modelled and its model has started (R241). -/
def hwOf (d : Dev) (k : Nat) : Option Rat :=
  if d.modelOn 0 && d.wset k != 0 && (d.mc k).wind.started then some ((d.coilSet (d.wset k)).thr - (d.mc k).wind.t1) else none
/-- The symmetry trim (R235, R244). -/
def phCoreOf (d : Dev) (k : Nat) : Int := if d.modelOn 1 then (d.mc k).phCore else 0
/-- A capacitor ageing alarm stands on a cell (R249). -/
def ageStands (d : Dev) (k : Nat) : Bool :=
  d.modelOn 2 && decide (((d.fld 0x34 0x58 31 16 : Nat) : Rat) / 65536 ≤ (d.mc k).age)

/-- The capacitance in F and the series resistance in Ω that the models use (R247). -/
def capC (d : Dev) (k : Nat) : Rat :=
  let e := tget 0 d.diag.est (64 + k)
  (((if d.flag 0x34 0x5C 0 && e != 0 then e else d.fld 0x34 0x48 31 16 : Nat) : Nat) : Rat) / 100000
def capEsr (d : Dev) (k : Nat) : Rat :=
  let e := tget 0 d.diag.est (128 + k)
  (((if d.flag 0x34 0x5C 0 && e != 0 then e else d.fld 0x34 0x48 15 0 : Nat) : Nat) : Rat) / 100000

/-- A fresh free real: the spec gives no value for a mean of nothing. DESIGN CHOICE [13]. -/
def freeR (d : Dev) : Rat × Dev :=
  let (f, d) := d.drawFree
  (Config.freeRat f, d)
/-- The mean of n values with a sum, a free value where there is none [13]. -/
def meanR (d : Dev) (sum : Rat) (n : Nat) : Rat × Dev := if n = 0 then d.freeR else (sum / n, d)

/-- A model trip of a cell (R234). -/
def cellTrip (d : Dev) (now k bit : Nat) (standing : Bool) : Dev :=
  let act := d.inSvc k
  let d := if act || !standing then (d.raiseLog now 0x34 bit k).trigger now 7 k now else d
  if act then d.nodeFault now k 0 now 1 else d
/-- A model trip of a string's inductor (R234). -/
def indTrip (d : Dev) (now s : Nat) (standing : Bool) : Dev :=
  let act := decide (0 < d.nSvcOf s)
  let d := if act || !standing then (d.raiseLog now 0x34 3 s).trigger now 7 s now else d
  if act then (d.latchBit now 1).exhaust now s else d

/-- A sample reaches the models (R237, R238, R243, R247, R248). -/
def modelSample (d : Dev) (k qty : Nat) (v : Int) : Dev :=
  if !d.domOn 9 then d
  else if qty = 0 && decide (k < 48) then
    let x : Rat := v
    d.updModel k (fun m =>
      let dv := match m.vLast with
        | some o => rawFs (x - o) d.vfs * 1000000000 / d.tc
        | none => 0
      { m with
        vMax := if m.vN = 0 then x else max m.vMax x, vMin := if m.vN = 0 then x else min m.vMin x
        vSum := m.vSum + x, vN := m.vN + 1, vRSum := m.vRSum + x, vRN := m.vRN + 1
        icSum := m.icSum + dv * dv, icN := if m.vLast.isSome then m.icN + 1 else m.icN, vLast := some x })
  else if qty = 2 && decide (k < 48) then d.updModel k (fun m => { m with fresh := true })
  else if qty = 3 then
    match d.strings.find? (fun s => decide (d.curCell s = k)) with
    | none => d
    | some s =>
      let i := rawFs v d.ifs
      let last := tget i d.model.iLast s
      let seen := d.model.iLast.any (fun p => p.1 == s)
      let dd := if seen then (i - last) * 1000000000 / d.tc else 0
      d.modMod (fun m => { m with
        iLast := (m.iLast.filter (fun p => p.1 != s)) ++ [(s, i)]
        iSum := tupd 0 m.iSum s (fun x => x + i * i), dSum := tupd 0 m.dSum s (fun x => x + dd * dd)
        iN := tupd 0 m.iN s (fun x => x + 1) })
  else if qty = 6 && decide (48 ≤ k) && d.legEn (k - 48) then
    d.modMod (fun m => { m with busSum := m.busSum + v, busN := m.busN + 1 })
  else d

/-- The DC-bus voltage that R237 uses, before the turns ratio. -/
def busVolts (d : Dev) : Rat × Dev :=
  if d.legs.isEmpty then (d.fld 0x34 0x34 31 16, d)
  else
    let (m, d) := d.meanR d.model.busSum d.model.busN
    (rawFs m d.bfs, d)
/-- The models' block of one cell: winding loss, the sum of I_h² wherever there is a winding set, energy and ripple (R237,
R247, R248). -/
def modelBlockCell (bus : Rat) (d : Dev) (k : Nat) : Dev :=
  let m := d.mc k
  let (vm, d) := d.meanR m.vSum m.vN
  let v := rawFs vm d.vfs
  let d :=
    if d.wset k = 0 then d
    else
      let cs := d.coilSet (d.wset k)
      let per := d.fld (chordPage k) 0x38 19 0
      let f : Rat := 8000000000 / per
      let delta := Config.piR / 2 * (m.phSum / m.phN) / 32768
      let on := decide (0 < m.phN)
      let p := if on then windLoss cs.rdc cs.fac cs.pfix v (cs.n * bus) delta f cs.llk else 0
      let i2 := if on then sumI2 v (cs.n * bus) delta f cs.llk else 0
      d.updModel k (fun m => { m with
        ih2 := i2, wind := if d.modelOn 0 then { m.wind with sumP := m.wind.sumP + p, nP := m.wind.nP + 1 } else m.wind })
  d.updModel k (fun m => { m with
    energy := d.capC k * v * v / 2, ripple := if m.vN = 0 then m.ripple else rawFs (m.vMax - m.vMin) d.vfs
    vSum := 0, vN := 0, vMax := 0, vMin := 0, phSum := 0, phN := 0 })
/-- The models' block of one string's inductor; PFIX counts where a cell of the string switched in the block (R238). -/
def modelBlockStr (d : Dev) (s : Nat) : Dev :=
  let n := tget 0 d.model.iN s
  let d :=
    if d.iset s = 0 || !d.modelOn 0 then d
    else
      let cs := d.coilSet (d.iset s)
      let w := 2 * Config.piR * cs.fac
      let pf := if (d.strCells s).any (fun k => (d.ch k).swBlk) then cs.pfix else 0
      let p := if n = 0 then 0 else cs.rdc * (tget 0 d.model.iSum s / n + tget 0 d.model.dSum s / n / (w * w)) + pf
      d.modMod (fun m => { m with ind := tupd {} m.ind s (fun c => { c with sumP := c.sumP + p, nP := c.nP + 1 }) })
  d.modMod (fun m => { m with iSum := tset 0 m.iSum s 0, dSum := tset 0 m.dSum s 0, iN := tset 0 m.iN s 0 })
/-- The models' part of a block boundary (R237, R238, R247). -/
def modelBlock (d : Dev) : Dev :=
  if !d.domOn 9 || !d.awareUp then d
  else
    let (b, d) := d.busVolts
    let d := (d.each (List.range 48) (modelBlockCell b)).each [0, 1, 2, 3] modelBlockStr
    d.modMod (fun m => { m with bus := some b, busSum := 0, busN := 0 })

/-- The core model of a cell at a commit: flux, symmetry trim and core factor; in hold and out of service λ leaks by the
same step although no sample arrives (R243 to R246). -/
def coreCommit (now : Nat) (d : Dev) (k : Nat) : Dev :=
  let m := d.mc k
  let tau : Rat := ((d.fld 0x34 0x38 15 0 : Nat) : Rat) / 1000
  let lim : Rat := ((d.fld 0x34 0x38 31 16 : Nat) : Rat) / 32768
  let cur := (tget (0, 0) (d.lk k).samp 2).1
  let dv : Int := match m.vsLast with
    | some o => sx 18 (ux 18 (cur - o))
    | none => 0
  let div := d.fld (facetPage k) 0x24 4 0
  let hold := d.patHeld k || !d.inSvc k
  let leak := m.fresh || (hold && decide (div ≤ m.lamAge + 1))
  let tcs : Rat := (d.tc : Rat) / 1000000000
  let lam := m.lam + (if m.fresh then (dv : Rat) / 131072 else 0) - (if leak then m.lam * (div * tcs) / tau else 0)
  let lam := (Config.roundAt 11 (lam * 2147483648) : Rat) / 2147483648
  let (lam, d) := if decide (-1 ≤ lam ∧ lam < 1) then (lam, d) else d.freeR
  let ln := lam / lim
  let smax : Int := (d.fld 0x34 0x40 15 0 : Nat)
  let ret : Int := (d.fld 0x34 0x44 15 0 : Nat)
  let ksym : Rat := (sx 16 (d.fld 0x34 0x40 31 16) : Rat) / 4096
  let t := clampI (-smax) smax (Config.roundAt 12 (ksym * ln * 32768))
  let ph :=
    if hold then 0
    else if t.natAbs > m.phCore.natAbs || decide (t * m.phCore < 0) then t
    else if m.phCore < t then min t (m.phCore + ret) else max t (m.phCore - ret)
  let a := if ln < 0 then -ln else ln
  let kcore : Rat := ((d.fld 0x34 0x3C 15 0 : Nat) : Rat) / 4096
  let kc := if 1 < a then clampR d.mKmin 1 (1 - kcore * (a - 1)) else 1
  let trip := decide (((d.fld 0x34 0x3C 31 16 : Nat) : Rat) / 4096 ≤ a)
  let d := d.updModel k (fun m => { m with
    lam := lam, vsLast := if m.fresh then some cur else m.vsLast, fresh := false, lamAge := if leak then 0 else m.lamAge + 1, phCore := ph, kc := kc, coreTrip := trip })
  let d := if kc < 1 && !(m.kc < 1) then d.raiseLog now 0x34 1 k else d
  if trip then d.cellTrip now k 4 m.coreTrip else d
/-- The models at a commit: core updates, symmetry trim, then the factor of every cell (R232, R251). -/
def modelCommit (d : Dev) (now : Nat) : Dev :=
  let d := if d.modelOn 1 then d.each (List.range 48) (coreCommit now)
    else d.each (List.range 48) (fun d k => d.updModel k (fun m => { m with kc := 1, coreTrip := false }))
  d.each (List.range 48) (fun d k => d.updModel k (fun m => { m with ki := d.kOf k }))

/-- A coil in a round in which its model is off: its factor is 1, no trip stands, and no block's loss waits (R235, R239). -/
def coilOff (c : Coil) : Coil := { c with k := 1, trip := false, sumP := 0, nP := 0 }
/-- One round of a coil's thermal network and throttle (R233, R239). -/
def coilRound (d : Dev) (cs : CoilSet) (c : Coil) (ta : Option Rat) (sub : Bool) : Coil × Dev :=
  let amb := ta.getD c.amb
  if !c.started then
    match ta with
    | none => (c, d)
    | some a => ({ c with started := true, t1 := q16 (a + cs.ofs), t2 := q16 (a + cs.ofs), amb := a, subst := sub, z := 0, k := 1, sumP := 0, nP := 0 }, d)
  else
    let (p, d) := d.meanR c.sumP c.nP
    let t1 := q16 (c.t1 + (1 / 1000) / cs.c1 * (p - (c.t1 - c.t2) / cs.rth12))
    let t2 := q16 (c.t2 + (1 / 1000) / cs.c2 * ((t1 - c.t2) / cs.rth12 - (c.t2 - amb) / cs.rth2a))
    let x := t1 - cs.thr
    let z := lawZ d.mSlope d.mTi c.z x
    ({ c with t1 := t1, t2 := t2, amb := amb, subst := sub, z := z, k := lawK d.mSlope d.mKmin z x, sumP := 0, nP := 0
              trip := decide (cs.trip ≤ t1) }, d)

/-- A sensor's value in °C as the models see it: none before a first valid reading; whether it is substituted or held. -/
def ambOf (d : Dev) (i : Nat) : Option Rat × Bool :=
  let s := d.sensor i
  (if s.known then some (s.val / 8) else none, s.suspect || s.stale)
/-- The median of a list of temperatures: the mean of the two middle ones where their number is even. -/
def median (l : List Rat) : Option Rat :=
  let s := l.mergeSort (fun a b => decide (a ≤ b))
  let n := s.length
  if n = 0 then none
  else if n % 2 = 1 then s[n / 2]?
  else match s[n / 2 - 1]?, s[n / 2]? with
    | some a, some b => some ((a + b) / 2)
    | _, _ => none
/-- The ambient of a winding and of an inductor (R240). -/
def windAmb (d : Dev) (k : Nat) : Option Rat × Bool :=
  let r := d.rd 0x34 (0x100 + 0x10 * k)
  let a := bits r 9 8
  if a = 3 then d.ambOf (16 + bits r 1 0) else d.ambOf (20 + 3 * k + a)
def indAmb (d : Dev) (s : Nat) : Option Rat × Bool :=
  let r := d.rd 0x34 (0x60 + 8 * s)
  if bit r 4 then d.ambOf (16 + bits r 1 0)
  else
    let l := ((d.strCells s).filter d.inSvc).map (fun k => d.ambOf (20 + 3 * k))
    (median (l.filterMap (·.1)), l.any (·.2))

/-- The winding of a cell at a round (R233, R234, R239). -/
def windRound (now : Nat) (d : Dev) (k : Nat) : Dev :=
  if d.wset k = 0 then d
  else
    let c := (d.mc k).wind
    let (ta, sub) := d.windAmb k
    let (c', d) := d.coilRound (d.coilSet (d.wset k)) c ta sub
    let d := d.updModel k (fun m => { m with wind := c' })
    let d := if c'.k < 1 && !(c.k < 1) then d.raiseLog now 0x34 0 k else d
    if c'.trip then d.cellTrip now k 3 c.trip else d
/-- The inductor of a string at a round. -/
def indRound (now : Nat) (d : Dev) (s : Nat) : Dev :=
  if d.iset s = 0 then d
  else
    let c := d.ind s
    let (ta, sub) := d.indAmb s
    let (c', d) := d.coilRound (d.coilSet (d.iset s)) c ta sub
    let d := d.modMod (fun m => { m with ind := tset {} m.ind s c' })
    let d := if c'.k < 1 && !(c.k < 1) then d.raiseLog now 0x34 0 s else d
    if c'.trip then d.indTrip now s c.trip else d

/-- The DC-link model of a cell at a round: hot-spot temperature, without loss while the cell is bypassed, factor, trip and
ageing (R248, R249, R251). -/
def capRound (now : Nat) (d : Dev) (k : Nat) : Dev :=
  let m := d.mc k
  let (ta, _) := d.ambOf (21 + 3 * k)
  match m.capOn, ta with
  | false, none => d
  | false, some a => d.updModel k (fun m => { m with capOn := true, tcap := a, zk := 0, kk := 1, icSum := 0, icN := 0, vRSum := 0, vRN := 0 })
  | true, _ =>
    let amb := ta.getD m.tcap
    let c := d.capC k
    let (ic2, d) := d.meanR m.icSum m.icN
    let (vm, d) := d.meanR m.vRSum m.vRN
    let khf : Rat := ((d.fld 0x34 0x5C 31 16 : Nat) : Rat) / 32768
    let ih2 := if d.wset k = 0 then 0 else m.ih2
    let p := if d.effective k == .bypass then 0 else d.capEsr k * (c * c * ic2 + khf * ih2)
    let rth : Rat := ((d.fld 0x34 0x4C 31 16 : Nat) : Rat) / 1000
    let t := m.tcap + (amb + rth * p - m.tcap) * (1 / 1000) / (d.fld 0x34 0x4C 15 0 : Nat)
    let x := t - ((d.fld 0x34 0x50 31 20 : Nat) : Rat) / 8
    let z := lawZ d.mSlope d.mTi m.zk x
    let kk := lawK d.mSlope d.mKmin z x
    let trip := decide (((d.fld 0x34 0x50 19 8 : Nat) : Rat) / 8 ≤ t)
    let v := rawFs vm d.vfs
    let life := d.rd 0x34 0x54
    let dt : Rat := 2 * (bits life 7 4 : Nat)
    let da : Rat :=
      if v ≤ 0 then 0
      else (1 / 1000) / ((bits life 31 16 : Nat) * 360000 * Config.powR 2 (((bits life 15 8 : Nat) - t) / dt) *
        ((d.fld 0x34 0x58 15 0 : Nat) / v) ^ (bits life 3 0))
    let age := (Config.roundAt 13 ((m.age + da) * 281474976710656) : Rat) / 281474976710656
    let alarm := decide (((d.fld 0x34 0x58 31 16 : Nat) : Rat) / 65536 ≤ age)
    let d := d.updModel k (fun m => { m with
      tcap := t, zk := z, kk := kk, capTrip := trip, age := age, ageAlarm := alarm
      icSum := 0, icN := 0, vRSum := 0, vRN := 0 })
    let d := if kk < 1 && !(m.kk < 1) then d.raiseLog now 0x34 2 k else d
    let d := if alarm && !m.ageAlarm then d.raiseLog now 0x34 6 k else d
    if trip then d.cellTrip now k 5 m.capTrip else d

/-- A round in which the coil or the capacitor model is off (R235): factors of 1, and no loss, sample or trip waits for the
round in which it comes on (R233, R239, R248, R249). -/
def coilsOff (d : Dev) : Dev :=
  (d.each (List.range 48) (fun d k => d.updModel k (fun m => { m with wind := coilOff m.wind }))).each [0, 1, 2, 3]
    (fun d s => d.modMod (fun m => { m with ind := tupd {} m.ind s coilOff }))
def capsOff (d : Dev) : Dev :=
  d.each (List.range 48) (fun d k => d.updModel k (fun m => { m with
    kk := 1, capTrip := false, icSum := 0, icN := 0, vRSum := 0, vRN := 0 }))
/-- The models' part of a housekeeping round, from AWARE onward (R239, R248, R249). -/
def modelRound (d : Dev) (now : Nat) : Dev :=
  if !d.domOn 9 || !d.awareUp then d
  else
    let d := if d.modelOn 0 then (d.each (List.range 48) (windRound now)).each [0, 1, 2, 3] (indRound now) else d.coilsOff
    if d.modelOn 2 then d.each (List.range 48) (capRound now) else d.capsOff

/-- What the models hold of a cell when PD9 turns on: all but the consumed life (R235, R250). -/
def modelStart (d : Dev) : Dev :=
  let ages := (List.range 48).map (fun k => (k, (d.mc k).age))
  let fresh := ages.foldl (fun (t : Tbl MCell) (p : Nat × Rat) => tset {} t p.1 { age := p.2 }) []
  d.modMod (fun m => { m with cell := fresh, ind := [], iLast := [], iSum := [], dSum := [], iN := [], busSum := 0, busN := 0, bus := none })

end Dev
end Sys2Proof.Machine
end

