-- ==== Sys2Proof/Machine/Chord.lean ====
section
/-! DEFINITION. Chord modulators (chapter 05): carriers and phase slots, the limiter, edge computation with dead-time
compensation, pulses and carry, bootstrap refresh, rest and start, DAB patterns, the duplicated engines. All instants
are edge-time ticks. -/

namespace Sys2Proof.Machine

/-- What the edge computation of one unit takes for one commit (R127 to R138): the carrier period, the segment, the
earliest placeable instant, the dead time and pulse limits, the reference, the weight of leg A for DIR = 1 (R129). -/
structure EdgePar where
  per : Int
  e0 : Int
  e1 : Int
  ep : Int
  dead : Int
  minp : Int
  tmax : Int
  tref : Int
  step : Int
  cap : Int
  boot : Bool
  x : Int
  umax : Int
  w1 : Rat
  mute : Bool
  ovrA : Nat
  ovrB : Nat

/-- The earliest instant at which an edge of the commit may be placed (R130). -/
def EdgePar.lo (p : EdgePar) : Int := max p.e0 p.ep

/-- A transition computed in a commit and not yet handed over: its instant, direction, KIND of Table 12.9, flags, the
window in which its carry release may move it (none once released), and the on-time counter before it. -/
structure PTx where
  t : Int
  dir : Bool
  kind : Nat
  late : Bool
  delayed : Bool
  win : Option (Int × Int)
  on0 : Option Nat

/-- A leg under computation: its state, its transitions not yet handed over (newest first), what it counted. -/
structure LegW where
  g : LegSt
  out : List PTx
  nDrop : Nat
  nOvl : Nat
  nLate : Nat
  nRef : Nat
  nForced : Nat
  nLost : Nat

namespace LegW

def ofLeg (g : LegSt) : LegW := ⟨g, [], 0, 0, 0, 0, 0, 0⟩
/-- Adds high time owed to the leg, cut at CARRY_CAP (R132). -/
def owe (p : EdgePar) (w : LegW) (amt : Int) : LegW :=
  let c := w.g.carry + amt
  let c' := clampI (-p.cap) p.cap c
  { w with g := { w.g with carry := c' }, nLost := if c' = c then w.nLost else w.nLost + 1 }
/-- The leg is high, or a refresh's return transition is still to come (R134). -/
def isHigh (w : LegW) : Bool := w.g.high || w.g.ret.isSome
/-- The instant of the transition before the next one. -/
def prev (w : LegW) : Option Int :=
  match w.out with
  | x :: _ => some x.t
  | [] => w.g.last.map Int.ofNat
/-- The on-time counter after a DIR = 1 at t: it restarts where the lower switch has conducted long enough since the
transition before (R134). -/
def restartOn (p : EdgePar) (before : Option Int) (t : Int) (on0 : Option Nat) : Option Nat :=
  match before with
  | none => some (t + p.dead).toNat
  | some q => if p.tref ≤ t - (q + p.dead) then some (t + p.dead).toNat else on0
/-- Releases the carry of the newest transition, within the headroom of R132; nxt is the transition after it. -/
def settle (p : EdgePar) (w : LegW) (nxt : Option Int) : LegW :=
  match w.out with
  | [] => w
  | x :: r =>
    match x.win with
    | none => w
    | some (a0, b0) =>
      let gap := p.dead + p.minp
      let pt := match r with
        | y :: _ => some y.t
        | [] => w.g.last.map Int.ofNat
      let a1 := max a0 p.lo
      let a2 := match pt with
        | some q => max a1 (q + gap)
        | none => a1
      let a := match x.dir, w.g.hold with
        | true, some h => max a2 h
        | _, _ => a2
      let b := match nxt with
        | some n => min b0 (n - gap)
        | none => b0
      let c := w.g.carry
      let later := decide (0 < c) == !x.dir
      let q := min (min (Int.ofNat c.natAbs) p.step) (if later then b - x.t else x.t - a)
      if q ≤ 0 then { w with out := { x with win := none } :: r }
      else
        let t' := if later then x.t + q else x.t - q
        let on' := if x.dir then restartOn p pt t' x.on0 else w.g.tOn
        { w with
          g := { w.g with carry := if 0 < c then c - q else c + q, tOn := on' }
          out := { x with t := t', win := none } :: r }
/-- A transition joins the commit's list; the on-time counter restarts after enough low conduction (R134). -/
def push (p : EdgePar) (w : LegW) (t : Int) (dir : Bool) (kind : Nat) (late delayed : Bool) (win : Option (Int × Int)) : LegW :=
  let w := w.settle p (some t)
  let on' := if dir then restartOn p w.prev t w.g.tOn else w.g.tOn
  { w with
    out := ⟨t, dir, kind, late, delayed, win, w.g.tOn⟩ :: w.out
    g := { w.g with high := dir, tOn := on' } }
/-- A transition is placed (R130), held back by a forced hold (R135), and tested against the one before it (R131). -/
def emit (p : EdgePar) (w : LegW) (t : Int) (dir : Bool) (kind : Nat) (win : Option (Int × Int)) : LegW :=
  let late := decide (t < p.lo)
  let t1 := max t p.lo
  let w := if late then { w with nLate := w.nLate + 1 } else w
  let t2 := match dir, w.g.hold with
    | true, some h => max t1 h
    | _, _ => t1
  let sgn : Int := if dir then 1 else -1
  let free := { w with g := { w.g with hold := if dir then none else w.g.hold } }
  match w.prev with
  | none => (free.push p t2 dir kind late false win).owe p (sgn * (t2 - t))
  | some q =>
    let gap := t2 - q - p.dead
    if p.minp ≤ gap then (free.push p t2 dir kind late false win).owe p (sgn * (t2 - t))
    else
      match w.out with
      | y :: r =>
        if 2 * gap < p.minp then
          ({ w with out := r, nDrop := w.nDrop + 1, g := { w.g with high := dir, tOn := y.on0 } }).owe p
            (sgn * (t2 - t) + (if y.dir then t2 - y.t else y.t - t2))
        else
          let t3 := q + p.dead + p.minp
          ({ free with nOvl := w.nOvl + 1 }.push p t3 dir kind late true win).owe p (sgn * (t3 - t))
      | [] =>
        let t3 := q + p.dead + p.minp
        ({ free with nOvl := w.nOvl + 1 }.push p t3 dir kind late true win).owe p (sgn * (t3 - t))
/-- The high time lost since a forced refresh, up to the instant at which the leg would have fallen, or rises again
(R135). -/
def closeOwe (p : EdgePar) (t : Int) (w : LegW) : LegW :=
  match w.g.owe with
  | some o => ({ w with g := { w.g with owe := none } }).owe p (t - o)
  | none => w
/-- The low time that a refresh costs, owed to the leg (R134). DESIGN CHOICE [85]: a half is rounded up. -/
def tau (p : EdgePar) (w1 : Rat) : Int := p.tref + rnd (2 * p.dead * w1)
/-- A refresh's return transition from an earlier segment, where it falls before an instant (R134). -/
def giveBack (p : EdgePar) (w1 : Rat) (limit : Int) (w : LegW) : LegW :=
  match w.g.ret with
  | some (_, tr) =>
    if (tr : Int) < limit then (({ w with g := { w.g with ret := none } }).owe p (tau p w1)).emit p tr true 4 none else w
  | none => w
/-- A DIR = 0 ends a refresh whose return transition would be too near: it takes the place of the refresh, whose DIR = 0
has been sent, and no return transition is sent (R134). -/
def takeBack (p : EdgePar) (t : Int) (w : LegW) : Option LegW :=
  match w.g.ret with
  | some (tg, tr) =>
    if t < (tr : Int) + p.dead + p.minp then some (({ w with g := { w.g with ret := none } }).owe p (t - tg)) else none
  | none => none
/-- The DIR = 0 of a refresh at tg, tested against the DIR = 1 before it (R131): sent, delayed, or dropped with that
DIR = 1; the instant at which the leg falls. DEDUCED [74]: the return transition follows a delayed one, so a delay moves
no high time. -/
def refreshLow (p : EdgePar) (tg : Int) (w : LegW) : LegW × Int :=
  let late := decide (tg < p.lo)
  let t := max tg p.lo
  let w := { w with nRef := w.nRef + 1, nLate := if late then w.nLate + 1 else w.nLate }
  match w.prev with
  | none => (w.push p t false 4 late false none, t)
  | some q =>
    let gap := t - q - p.dead
    if p.minp ≤ gap then (w.push p t false 4 late false none, t)
    else
      let t3 := q + p.dead + p.minp
      let wait := ({ w with nOvl := w.nOvl + 1 }).push p t3 false 4 late true none
      match w.out with
      | y :: r =>
        if 2 * gap < p.minp then
          (({ w with out := r, nDrop := w.nDrop + 1, g := { w.g with high := false, tOn := y.on0 } }).owe p (t - y.t), t)
        else (wait, t3)
      | [] => (wait, t3)
/-- The bootstrap refreshes that fall before an instant; true where a natural DIR = 0 at that instant has been moved
to the refresh (R134). w1 is the leg's weight for DIR = 1. A return transition that lies beyond the segment waits for the
commit of its own [74]. -/
def refresh (p : EdgePar) (w1 : Rat) : Nat → LegW → Int → Bool → LegW × Bool
  | 0, w, _, _ => (w, false)
  | n + 1, w0, limit, nat =>
    match w0.g.tOn with
    | none => (w0, false)
    | some on0 =>
      if !p.boot || !w0.g.high || decide (limit ≤ (on0 : Int) + p.tmax) then (w0, false)
      else
        let w := w0.settle p none
        let tg : Int := ((w.g.tOn.getD on0 : Nat) : Int) + p.tmax
        if limit ≤ tg then (w, false)
        else
          let (w, tg') := w.refreshLow p tg
          let tr := tg' + p.dead + p.tref
          if nat && decide (limit < tr + p.dead + p.minp) then (w.owe p (limit - tg'), true)
          else if p.e1 ≤ tr then ({ w with g := { w.g with ret := some (tg'.toNat, tr.toNat) } }, false)
          else refresh p w1 n ((w.owe p (tau p w1)).emit p tr true 4 none) limit nat
/-- The crossing of a leg in the part of a half-period that lies in the segment (R127 to R129). DESIGN CHOICE [85]: the
compensated instant's half is rounded up. -/
def cross (p : EdgePar) (legB : Bool) (hs he : Int) (rising : Bool) (w : LegW) : LegW :=
  let want := if rising then w.isHigh || w.g.owe.isSome else !w.isHigh
  if p.mute || w.g.latched || w.g.ovr != 0 || !want then w
  else
    let y := if legB then -p.x else p.x
    let z := if rising then 32768 + y else 32768 - y
    let tx := max (hs + rnd ((z * p.per : Int) / (131072 : Rat))) (max p.e0 hs)
    if min p.e1 he ≤ tx then w
    else
      let w1 := if legB then 1 - p.w1 else p.w1
      let dir := !rising
      let t := rnd ((tx : Rat) - p.dead * (if dir then w1 else 1 - w1))
      let w := { w with g := { w.g with latched := true } }
      let w := if dir then w else w.closeOwe p t
      let w := match (if rising then w.takeBack p t else none) with
        | some w' => w'
        | none => w.giveBack p w1 (t + 1)
      if rising && !w.g.high then w
      else
        let c := tx - t
        let lim1 := hs + rnd (((32768 - p.umax) * p.per : Int) / (131072 : Rat)) - c
        let lim2 := hs + rnd (((32768 + p.umax) * p.per : Int) / (131072 : Rat)) - c
        let win := (max (max p.e0 hs) lim1, min (min p.e1 he - 1) lim2)
        if dir then w.emit p t true 0 (some win)
        else
          let (w, moved) := refresh p w1 16 w t true
          if moved then w else w.emit p t false 0 (some win)
/-- A leg starts at a peak: a bootstrap leg sends DIR = 0, placed as R130 places every edge, and holds its lower switch
on (R137). -/
def start (p : EdgePar) (pk : Int) (w : LegW) : LegW :=
  if p.boot then
    let t := max pk p.lo
    let late := decide (pk < p.lo)
    let w := (w.push p t false 0 late false none).owe p (pk - t)
    let w := { w with nLate := if late then w.nLate + 1 else w.nLate }
    { w with g := { w.g with hold := some (t + p.dead + 4 * p.tref).toNat } }
  else w
/-- Overrides change at a peak (R138); a leg that rests is low (R136). The refreshes of a positive hold that end there are
placed first, and what a forced refresh cost is closed (R134, R135). -/
def peak (p : EdgePar) (w1 : Rat) (pk : Int) (code : Nat) (resting : Bool) (w : LegW) : LegW :=
  let code := if resting then 0 else code
  let w := ({ w with g := { w.g with ovr := code, latched := false } }).closeOwe p pk
  if code = 1 && !w.isHigh then w.emit p pk true 0 none
  else if code != 1 && w.isHigh then
    match w.takeBack p pk with
    | some w => w
    | none =>
      let w := w.giveBack p w1 pk
      if w.g.high then
        let (w, moved) := refresh p w1 16 w pk true
        if moved then w else w.emit p pk false 0 none
      else w
  else w
/-- The forced refresh after a first UVLO report, delayed where R131 asks for it (R131, R135). -/
def forced (p : EdgePar) (w : LegW) : LegW :=
  if !w.g.force then w
  else
    let t := match w.g.high, w.prev with
      | true, some q => max p.ep (q + p.dead + p.minp)
      | _, _ => p.ep
    let delayed := decide (p.ep < t)
    let he := (t + p.dead + 4 * p.tref).toNat
    let w' := if w.g.high then
        let x := w.push p t false 4 false delayed none
        { x with g := { x.g with owe := some t.toNat }, nOvl := if delayed then x.nOvl + 1 else x.nOvl }
      else
        match w.g.ret with
        | some (tg, _) => { w with g := { w.g with ret := none, owe := some tg } }
        | none => w
    { w' with
      nForced := w.nForced + 1
      g := { w'.g with force := false, hold := some he, uvlo := w.g.uvlo.map (fun u => (u.1, he)) } }
/-- The leg at the end of its commit: the last release, and the refreshes before the segment ends. -/
def close (p : EdgePar) (w1 : Rat) (w : LegW) : LegW :=
  (refresh p w1 16 ((w.giveBack p w1 p.e1).settle p none) p.e1 false).1

/-- Whether the leg's transitions all lie at or before an instant (R136). -/
def quietBy (w : LegW) (pk : Int) : Bool :=
  (match w.g.last with
    | some t => decide ((t : Int) ≤ pk)
    | none => true) && w.out.all (fun x => decide (x.t ≤ pk)) && w.g.ret.all (fun r => decide ((r.2 : Int) ≤ pk))

end LegW

/-- A unit under computation. -/
structure UnitW where
  c : Chord
  a : LegW
  b : LegW

/-- The half-period of a carrier that ends at or after an instant and starts before it (R121). -/
def halfAt (per phi : Nat) (t : Nat) : Nat × Nat × Bool :=
  let pos := (((t : Int) - 1 - phi) % (per : Int)).toNat
  let s := t - 1 - pos
  if pos < per / 2 then (s, s + per / 2, true) else (s + per / 2, s + per, false)

/-- A carrier peak of a unit: start, return from rest, rest, overrides, and the dwell of a phase move (R123, R136 to
R138). -/
def atPeak (p : EdgePar) (leg : Bool) (pk : Nat) (w : UnitW) : UnitW :=
  let c := w.c
  let starts := c.startPk.isNone && (match c.startAt with
    | some t => decide (t ≤ pk)
    | none => false)
  let back := c.restPk.isSome && (match c.backAt with
    | some t => decide (t ≤ pk)
    | none => false)
  let rests := c.startPk.isSome && c.restPk.isNone && w.a.quietBy pk && w.b.quietBy pk && (match c.restAt with
    | some t => decide (t ≤ pk)
    | none => false)
  let c := if starts then { c with startPk := some pk } else c
  let c := if back then { c with restPk := none, backAt := none, mode := if c.mode == .resting then .modulating else c.mode } else c
  let c : Chord := { (if rests then { c with restPk := some pk, restAt := none } else c) with lastPk := some pk }
  let begun := c.startPk.isSome
  let resting := c.restPk.isSome
  let a := if starts then w.a.start p pk else w.a
  let b := if starts && !leg then w.b.start p pk else w.b
  let a := if begun then a.peak p p.w1 pk p.ovrA resting else a
  let b := if begun && !leg then b.peak p (1 - p.w1) pk p.ovrB resting else b
  let dl := min c.dwell (p.per.toNat / 8)
  let s := pk + dl
  { c := { c with phi := (c.phi + dl) % p.per.toNat, dwell := c.dwell - dl, half := some (s, s + p.per.toNat / 2, false) }
    a := a, b := b }
/-- The half-periods of a unit that meet the segment, in order (R127). -/
def edgeLoop (p : EdgePar) (leg : Bool) : Nat → UnitW → UnitW
  | 0, w => w
  | n + 1, w =>
    match w.c.half with
    | none => w
    | some (hs, he, rising) =>
      let go := w.c.startPk.isSome && w.c.restPk.isNone
      let w := if go then
          { w with a := w.a.cross p false hs he rising, b := if leg then w.b else w.b.cross p true hs he rising }
        else w
      if (he : Int) < p.e1 then
        if rising then edgeLoop p leg n (atPeak p leg he w)
        else
          edgeLoop p leg n { c := { w.c with half := some (he, he + p.per.toNat / 2, true) }
                             a := { w.a with g := { w.a.g with latched := false } }
                             b := { w.b with g := { w.b.g with latched := false } } }
      else w
/-- A cell told to rest has already met its rest peak: the last peak computed lies at or after the boundary, and follows
every transition handed over (R136). -/
def lateRest (p : EdgePar) (leg : Bool) (w : UnitW) : UnitW :=
  match w.c.restAt, w.c.lastPk with
  | some t, some pk =>
    if decide (t ≤ pk) && w.c.startPk.any (fun q => decide (q < pk)) && w.c.restPk.isNone && w.a.quietBy pk && w.b.quietBy pk then
      { c := { w.c with restPk := some pk, restAt := none }
        a := w.a.peak p p.w1 pk 0 true, b := if leg then w.b else w.b.peak p (1 - p.w1) pk 0 true }
    else w
  | _, _ => w
/-- The transitions of one commit of one unit. DEDUCED [85]: a peak of an earlier segment begins no dwell and ends no
rest. -/
def edgeUnit (p : EdgePar) (leg : Bool) (c : Chord) : UnitW :=
  let half := match c.half with
    | some h => if p.e0 ≤ (h.2.1 : Int) then h else halfAt p.per.toNat c.phi p.e0.toNat
    | none => halfAt p.per.toNat c.phi p.e0.toNat
  let w := lateRest p leg { c := { c with half := some half }, a := .ofLeg c.legA, b := .ofLeg c.legB }
  let w := { w with a := w.a.forced p, b := w.b.forced p }
  let w := edgeLoop p leg 12 w
  { w with a := w.a.close p p.w1, b := if leg then w.b else w.b.close p (1 - p.w1) }

namespace Dev

/-- The carrier period of a unit in ticks (R121, R143). -/
def carrier (d : Dev) (u : Nat) : Nat := 16 * d.fld (if isLeg u then 0x1C else 0x18) 0x60 19 0
/-- The context of a string's reference and of its DAB law (Table 5.10). -/
def vCtx (d : Dev) (s : Nat) : Nat := d.fld 0x18 (0x64 + 4 * s) 5 0
def dabCtx (d : Dev) (s : Nat) : Nat := d.fld 0x18 (0x64 + 4 * s) 13 8
/-- The context and element of a leg's reference. -/
def legCtx (d : Dev) (n : Nat) : Nat := d.fld 0x1C (0x64 + 4 * n) 5 0
def legElem (d : Dev) (n : Nat) : Nat := d.fld 0x1C (0x64 + 4 * n) 11 8
/-- The carrier phase of rank k of n in a string, and of the legs (R122, R143). -/
def slotPhase (d : Dev) (s k n : Nat) : Nat :=
  let p := d.carrier 0
  (rnd ((d.fld 0x18 (0x64 + 4 * s) 31 16 * p : Nat) / (65536 : Rat) + (k * p : Nat) / (2 * n : Rat))).toNat % p
def legPhase (d : Dev) : Nat :=
  let p := d.carrier 48
  (rnd ((d.fld 0x1C 0x64 31 16 * p : Nat) / (65536 : Rat))).toNat % p
/-- The phases of a string's cells at a block boundary: a cell that has a phase moves by dwelling (R122, R123).
DESIGN CHOICE [85]: SLOT and N_SLOT follow here, at the boundary and at the publication, and not when a cell leaves. -/
def rephase (d : Dev) (s : Nat) : Dev :=
  let svc := (d.strCells s).filter d.inSvc
  (svc.zipIdx).foldl (fun d kr =>
    let ph := d.slotPhase s kr.2 svc.length
    let per := d.carrier 0
    d.updChord kr.1 (fun c =>
      let c := { c with slot := kr.2, nslot := svc.length, placed := true }
      if !(d.ch kr.1).placed then { c with phi := ph, dwell := 0, half := none }
      else { c with dwell := (((ph : Int) - c.phi) % (per : Int)).toNat })) d
/-- A unit starts (R137): a full pattern change is due, and a leg may begin at its first peak from now on. -/
def startUnit (d : Dev) (now u : Nat) : Dev :=
  d.updChord u (fun c => { c with
    mode := .starting, patDue := !isLeg u, startPk := none, startAt := if isLeg u then some (16 * now) else none
    half := none, dwell := 0, placed := isLeg u, phi := if isLeg u then d.legPhase else c.phi
    restAt := none, restPk := none, backAt := none, lastPk := none
    legA := { carry := c.legA.carry }, legB := { carry := c.legB.carry } })

/-- The hand-over instant of commit m, 200 ns after C_m (R130, R180). -/
def commitAt (d : Dev) (m : Nat) : Nat := d.tm m + d.lat.lat - 1100
def hovAt (d : Dev) (m : Nat) : Nat := d.commitAt m + 200
/-- The earliest placeable instant of a link at commit m (R130). DESIGN CHOICE [85]: the delay is rounded up to a tick. -/
def epAt (d : Dev) (m u : Nat) : Nat :=
  let s := (d.hovAt m + 639) / 640 * 640
  16 * (s + 640) + ((d.lk u).delay + 15) / 16
/-- The current sample a commit may use: the one delivered for it, or one at most 2 periods old (R129). -/
def currentOf (d : Dev) (k qty m : Nat) : Option Int :=
  match (d.lk k).samp.find? (fun p => p.1 == qty) with
  | some (_, v, i) => if i ≤ m && m ≤ i + 2 then some v else none
  | none => none

/-- What the edge computation of a unit takes at commit m. -/
def edgePar (d : Dev) (m u : Nat) (x umax : Int) (mute : Bool) : EdgePar :=
  let pg := chordPage u
  let e0 := 16 * (d.tm m + d.lat.lat)
  let i := if isLeg u then d.currentOf u 4 m
    else match d.strOf u with
      | some s => d.currentOf (d.curCell s) 3 m
      | none => none
  let w1 : Rat := match i with
    | some v => clampR 0 1 ((1 + (v : Rat) / (2 * d.fld pg 0x24 31 16 : Nat)) / 2)
    | none => 1 / 2
  let ov := d.rd pg (0x400 + 4 * unitIdx u)
  { per := d.carrier u, e0 := e0, e1 := e0 + 16 * d.tc, ep := d.epAt m u
    dead := d.fld pg 0x20 16 0, minp := d.fld pg 0x24 15 0
    tmax := d.fld pg 0x28 31 16 * 16000, tref := d.fld pg 0x28 15 0
    step := d.fld pg 0x2C 15 0, cap := d.fld pg 0x2C 31 16 * 16
    boot := isLeg u || d.profC, x := x, umax := umax, w1 := w1, mute := mute
    ovrA := bits ov 1 0, ovrB := if isLeg u then 0 else bits ov 3 2 }

/-- A computed transition is handed to the link's scheduler; the one that closes a withheld pulse is withheld with
it (R73, R130). -/
def handOver (d : Dev) (u hov ep : Nat) (legB : Bool) (x : PTx) : Dev :=
  let edge := x.t.toNat
  match (d.legOf u legB).skip with
  | some (t1, dir1) =>
    (d.pulseLost u legB dir1 t1 edge).updLeg u legB (fun g => { g with skip := none, high := x.dir })
  | none =>
    let d := d.updLink u (fun l => { l with txQ := l.txQ ++ [{ edge := edge, leg := b2n legB, dir := x.dir }] })
    let d := d.updChord u (fun c => { c with nTr := c.nTr + 1, swBlk := true })
    let d := d.updLeg u legB (fun g => { g with last := some edge })
    d.pushTrace hov (traceTx hov edge u x.kind legB x.dir x.late x.delayed (decide (x.t - ep < 10240)))
/-- What a commit's computation of a leg counted (Tables 5.5 and 5.14). -/
def legCounts (d : Dev) (u : Nat) (w : LegW) : Dev :=
  let pg := chordPage u
  let d := d.updChord u (fun c => { c with
    drop := satN 16 c.drop w.nDrop, ovl := satN 16 c.ovl w.nOvl, late := satN 16 c.late w.nLate
    refresh := satN 16 c.refresh w.nRef, forced := satN 16 c.forced w.nForced, lost := satN 16 c.lost w.nLost })
  let ev := fun (d : Dev) (n bitNo : Nat) => if n = 0 then d else d.raise pg bitNo
  ev (ev (ev (ev (ev d w.nOvl 0) w.nDrop 1) w.nLate 3) w.nLost 4) w.nForced 5
/-- The edges of one unit for commit m, computed and handed over (R127 to R138). -/
def chordEdges (d : Dev) (m u : Nat) (p : EdgePar) : Dev :=
  let leg := isLeg u
  let w := edgeUnit p leg (d.ch u)
  let d := d.updChord u (fun _ => { w.c with
    legA := { w.a.g with last := (d.ch u).legA.last }, legB := { w.b.g with last := (d.ch u).legB.last } })
  let d := (d.legCounts u w.a).legCounts u w.b
  let hov := d.hovAt m
  let d := w.a.out.reverse.foldl (fun d x => d.handOver u hov p.ep.toNat false x) d
  w.b.out.reverse.foldl (fun d x => d.handOver u hov p.ep.toNat true x) d

/-- The units whose edges are computed: in service, their domain on and its engines running, started. -/
def chordRuns (d : Dev) (u : Nat) : Bool :=
  d.unitOn u && d.domOn (unitDomain u) && !bit d.hull.engStop (unitDomain u) &&
    ((d.ch u).mode == .starting || (d.ch u).mode == .modulating || (d.ch u).mode == .resting)

/-- The share of a cell with the rescale of R125, in the units of Q5.11 (exact: DESIGN CHOICE [85]), or none where no share is left. -/
def shareOf (d : Dev) (s k : Nat) : Option Rat :=
  let all := sumN ((d.strCells s).map (fun j => (d.vc j).g))
  let svc := sumN (((d.strCells s).filter d.inSvc).map (fun j => (d.vc j).g))
  if svc = 0 then none else some (((d.vc k).g * all : Nat) / (svc : Rat))
/-- The pilot tone on a cell, for its modes 1 to 3 or 4 (R260). -/
def toneOf (d : Dev) (k : Nat) (four : Bool) : Int :=
  let t := d.diag.pt
  if t.running && t.cell = k && ((t.mode == 4) == four) then t.tone else 0

/-- The limiter of a cell (R124, R125). DESIGN CHOICE [85]: a half of a reference is rounded up. -/
def limitCell (d : Dev) (s k : Nat) : Dev :=
  let g := (d.shareOf s k).getD 0
  let v : Rat := d.ctxOut (d.vCtx s) 0 0
  let um : Rat := d.uMax k
  let x := v * g / 2048 + d.toneOf k true
  let hit := decide (um < x ∨ x < -um)
  let d := if hit && !(d.ch k).limU then d.raise (chordPage k) 2 else d
  d.updChord k (fun c => { c with u := rnd (clampR (-um) um x), gx := g, g := (rnd g).toNat, limU := hit })
/-- The reference of a leg (R143, R356). -/
def limitLeg (d : Dev) (n : Nat) : Dev :=
  let u := 48 + n
  let um : Int := (d.kTh u * d.uMax u).floor
  let x := d.ctxOut (d.legCtx n) (d.legElem n) 0
  let hit := decide (um < x ∨ x < -um)
  let d := if hit && !(d.ch u).limU then d.raise 0x1C 2 else d
  d.updChord u (fun c => { c with u := clampI (-um) um x, limU := hit })

/-- The first downstream subframe at or after the hand-over instant of commit m (R130). -/
def firstSub (d : Dev) (m : Nat) : Nat := (d.hovAt m + 639) / 640 * 640
/-- The start of three subframes in which cells of a page take a full pattern change together: after the first copies
that wait on their links and before the next commit hands over others, so that no word of R74 comes between; and with no
boundary of an old period grid from the PERIOD word's departure to 200 ns after the PHASE word's arrival at the farthest
node (R74, R142). None where this commit leaves no such place: the change waits for the next. -/
def patStart (d : Dev) (m : Nat) (cells : List Nat) : Option Nat :=
  let s := d.firstSub m
  let far := (cells.map (fun k => (d.lk k).delay)).foldl max 0
  let busy := (cells.map (fun k => (d.lk k).txQ.length + (d.lk k).ctlQ.length)).foldl max 0
  let ok := fun (i : Nat) =>
    let p := s + 640 * i
    let b := 16 * (p + 1920) + (far + 15) / 16 + 3200
    decide (busy ≤ i) && decide (p + 1920 ≤ d.firstSub (m + 1)) &&
      cells.all (fun k =>
        let old := 2 * (d.ch k).perSent
        decide ((d.lk k).patN < 8) && (old == 0 || 16 * p / old == b / old))
  ((List.range 80).find? ok).map (fun i => s + 640 * i)
/-- The words of a full pattern change (R141). -/
def patWords (d : Dev) (u phase : Nat) : List Nat :=
  [0x500000 + d.fld (chordPage u) 0x38 19 0, 0x600000 + d.fld (chordPage u) 0x34 16 0, 0x400000 + phase]
/-- A full pattern change of the cells of a page for which one is due and which are in no hold (R141, R142). -/
def patPage (m : Nat) (run : Nat → Bool) (d : Dev) (x : Nat) : Dev :=
  let cells := ((List.range 12).map (12 * x + ·)).filter (fun k => run k && (d.ch k).patDue && !d.patHeld k)
  if cells.isEmpty then d
  else
    match d.patStart m cells with
    | none => d
    | some at_ =>
      d.each cells (fun d k =>
        let val := ux 20 (8 * (d.ch k).phRaw)
        let d := (d.updLink k (fun l => { l with patQ := d.patWords k val, patAt := at_ })).updChord k
          (fun c => { c with patDue := false })
        [(2, d.fld (chordPage k) 0x38 19 0), (3, d.fld (chordPage k) 0x34 16 0), (1, val)].foldl
          (fun d kv => d.pushTrace (d.hovAt m) (traceWord (d.hovAt m) k kv.1 kv.2)) d)
/-- The DAB phase of a cell, and its PHASE trim where no full pattern change is due (R139 to R141). -/
def dabCell (d : Dev) (m s k : Nat) : Dev :=
  let p := k - d.strFirst s
  let lim : Int := (d.kOf k * d.fld (chordPage k) 0x30 15 0).floor
  let x := d.ctxOut (d.dabCtx s) p 0 + (d.vc k).ph + d.phCoreOf k + d.toneOf k false
  let ph := clampI (-lim) lim x
  let hit := decide (ph ≠ x)
  let d := if hit && !(d.ch k).limPh then d.raise (chordPage k) 2 else d
  let hold := d.patHeld k
  let d := d.updChord k (fun c => { c with limPh := hit, phRaw := ph, patHold := hold, patDue := c.patDue || (c.patHold && !hold) })
  if hold then d
  else
    let d := if d.domOn 9 then d.updModel k (fun y => { y with phSum := y.phSum + ph, phN := y.phN + 1 }) else d
    let val := ux 20 (8 * ph)
    let hov := d.hovAt m
    if (d.ch k).patDue then d
    else if val != (((d.lk k).patQ.filter isPhase).getLast?.map (· % 2 ^ 20)).getD (d.ch k).phSent then
      let d := d.updLink k (fun l => { l with patQ := l.patQ.filter (fun w => !isPhase w) ++ [0x400000 + val] })
      d.pushTrace hov (traceWord hov k 1 val)
    else d

/-- A retreat (R144): each leg whose last transition was DIR = 1 gets DIR = 0 at EP, delayed where R131 asks for it, and the
cell rests in pattern hold until the next block boundary. -/
def retreat (d : Dev) (m u : Nat) : Dev :=
  let ep := d.epAt m u
  let hov := d.hovAt m
  let d := (if isLeg u then [false] else [false, true]).foldl (fun d legB =>
    if (d.legOf u legB).high then
      let pg := chordPage u
      let t := match (d.legOf u legB).last with
        | some q => max ep (q + d.fld pg 0x20 16 0 + d.fld pg 0x24 15 0)
        | none => ep
      let late := decide (ep < t)
      let d := if late then
          ((d.updChord u (fun c => { c with ovl := sat1 16 c.ovl })).raise pg 0).addCarry u legB ((ep : Int) - t)
        else d
      (d.handOver u hov ep legB ⟨t, false, 5, false, late, none, none⟩).updLeg u legB (fun g => { g with high := false })
    else d) d
  let d := (d.updChord u (fun c => { c with mode := .retreat, patHold := true, half := none })).updLink u
    (fun l => { l with patQ := [] })
  if isLeg u then d else d.updCell u (fun v => { v with cause := true })
/-- A mismatch of the engines on one unit alone, that of its retreat's transitions after it or not (Table 5.3). -/
def mismatchOne (d : Dev) (now m u : Nat) (ret : Bool) : Dev :=
  let blk := now / blockNs
  let again := ret || (match (d.ch u).cmpBlk with
    | some b => decide (blk ≤ b + 1)
    | none => false)
  let d := d.updChord u (fun c => { c with cmpBlk := some blk })
  if again then d.nodeFault now u 0 now else d.retreat m u
/-- The mismatches of a commit in one domain (Table 5.3): a retreat that mismatches follows a mismatch of its unit. -/
def mismatches (now m : Nat) (mis : List Mismatch) (d : Dev) (pd : Nat) : Dev :=
  let l := mis.filter (fun x => unitDomain x.unit == pd)
  let units := (l.map (·.unit)).eraseDups
  let ret := fun (u : Nat) => l.any (fun x => x.unit == u && x.retreat)
  let d := (units.flatMap (fun u => List.replicate (if ret u then 2 else 1) u)).foldl (fun d u =>
    let pg := chordPage u
    let d := (d.updChord u (fun c => { c with cmp := sat1 16 c.cmp })).raiseLog now pg 7 u
    { d with cmpStat := tupd 0 d.cmpStat (pg - 0x18) (sat1 16) }) d
  match units with
  | [] => d
  | [u] => d.mismatchOne now m u (ret u)
  | _ =>
    let pages := if pd = 3 then [0x18, 0x19] else [0x1A, 0x1B, 0x1C]
    let d := pages.foldl (fun d pg =>
      { (d.raiseLog now pg 8) with cmpDom := tupd 0 d.cmpDom (pg - 0x18) (sat1 16) }) d
    (d.modHull (fun h => { h with engStop := setBit h.engStop pd true })).latch now 4

/-- The feedback of a commit (R126): clamped cells by string, phase clamps by cell, clamps by leg. -/
def chordFeedback (d : Dev) : Dev :=
  let cnt := d.strings.foldl (fun (t : Tbl Nat) s =>
    tset 0 t s ((d.strCells s).filter (fun k => d.inSvc k && (d.ch k).limU)).length) []
  let ph := (List.range 48).foldl (fun (t : Tbl Bool) k => tset false t k ((d.ch k).limPh && d.inSvc k)) []
  let lg := (List.range 4).foldl (fun (t : Tbl Bool) n => tset false t n ((d.ch (48 + n)).limU && d.unitOn (48 + n))) []
  d.modLat (fun l => { l with fbCount := cnt, fbPh := ph, fbLeg := lg })

/-- The clamps of the last commit clear on a unit whose limiters this one does not run (Table 5.12). -/
def limClear (d : Dev) : Dev :=
  d.each allUnits (fun d u =>
    if d.unitOn u && d.domOn (unitDomain u) && (isLeg u || d.inSvc u) || !((d.ch u).limU || (d.ch u).limPh) then d
    else d.updChord u (fun c => { c with limU := false, limPh := false }))
/-- Chord at commit m (R124 to R144). The units the engines disagree on hand over nothing. -/
def chordCommit (d : Dev) (now m : Nat) (mis : List Mismatch) : Dev :=
  let bad := mis.filter (fun x => d.chordRuns x.unit)
  let skip := bad.map (·.unit)
  let d := d.limClear
  let d := d.each d.strings (fun d s =>
    let svc := (d.strCells s).filter d.inSvc
    let d := d.each svc (fun d k => if d.domOn (unitDomain k) then d.limitCell s k else d)
    let mute := sumN (svc.map (fun j => (d.vc j).g)) == 0
    d.each svc (fun d k =>
      if skip.contains k || !d.domOn (unitDomain k) || bit d.hull.engStop (unitDomain k) then d
      else
        let d := d.dabCell m s k
        if d.chordRuns k then d.chordEdges m k (d.edgePar m k (d.ch k).u (d.uMax k) mute) else d))
  let d := d.each d.legs (fun d u =>
    if !d.unitOn u || !d.domOn 4 then d
    else
      let d := d.limitLeg (u - 48)
      if skip.contains u || !d.chordRuns u then d
      else d.chordEdges m u (d.edgePar m u (d.ch u).u (d.kTh u * d.uMax u).floor false))
  let runs := fun (k : Nat) => (d.strOf k).isSome && d.inSvc k && !skip.contains k && d.domOn (unitDomain k) &&
    !bit d.hull.engStop (unitDomain k)
  let d := d.each [0, 1, 2, 3] (patPage m runs)
  let d := d.chordFeedback
  [3, 4].foldl (mismatches now m bad) d

end Dev

/-- CELL_START: modulation of a unit begins at its start peak (R137). -/
def execCellStart (u : Nat) (s : State) : Host.Outcome State Fault Refusal :=
  onDev s (fun _ d => if (d.ch u).mode == .starting && (d.ch u).startPk.isSome then
    d.updChord u (fun c => { c with mode := .modulating }) else d)
/-- REST_ENTRY: a cell told to rest has met its rest peak (R136). -/
def execRestEntry (u : Nat) (s : State) : Host.Outcome State Fault Refusal :=
  onDev s (fun _ d => if (d.ch u).mode == .modulating && (d.ch u).restPk.isSome then
    d.updChord u (fun c => { c with mode := .resting }) else d)
/-- RETREAT_RELOAD: both engines reload a unit's state, clear its carries and restart it (R144). -/
def execRetreatReload (u : Nat) (s : State) : Host.Outcome State Fault Refusal :=
  onDev s (fun t d => if (d.ch u).mode == .retreat && d.unitOn u then
    (d.startUnit t u).updChord u (fun c => { c with legA := {}, legB := {} }) else d)

end Sys2Proof.Machine
end

