-- ==== Sys2Proof/Machine/Laws.lean ====
section
/-! DEFINITION. The arithmetic of Lattice and its routines (chapters 07 and 08): Q1.15 and Q9.31 with saturation, the
template laws, expert microcode, coefficient validity, and the step of Spline. -/

namespace Sys2Proof.Machine

/-- A computation that notes whether anything in it saturated (R177). -/
abbrev Sat := StateM Bool

/-- A result, and whether it had to be cut to its bounds. -/
def satTo (n : Nat) (x : Int) : Sat Int := fun s => (satI n x, s || decide (satI n x ≠ x))
/-- A 16-bit result (R177). -/
def s16 (x : Int) : Sat Int := satTo 16 x
/-- An accumulator or state word (R177). -/
def s40 (x : Int) : Sat Int := satTo 40 x
/-- A Q9.31 value stored to Q1.15 (R177). -/
def stq (x : Int) : Sat Int := s16 ((x + 32768) / 65536)
/-- The exact product of two Q1.15 values in Q9.31 (R176). -/
def mulQ (a b : Int) : Int := 2 * a * b
/-- A right shift of an accumulator, rounded as a store (R177). -/
def shrQ (x : Int) (n : Nat) : Int := if n = 0 then x else (x + (2 ^ (n - 1) : Nat)) / (2 ^ n : Nat)
/-- The sign of a number. -/
def sgn (x : Int) : Int := if 0 < x then 1 else if x < 0 then -1 else 0
/-- A node sample and a Prism output as they are latched (R178). -/
def cvtSample (v : Int) : Int := satI 16 ((v + 2) / 4)
def cvtPrism (v : Int) : Int := satI 16 ((v + 128) / 256)
/-- A Q1.31 set-point stored to Q1.15 (R226). -/
def q15 (y : Int) : Int := satI 16 ((y + 32768) / 65536)

/-- OPS per element, CP and DEC_OK of a template (Table 7.5). -/
def tplCost (t h : Nat) : Nat × Nat × Bool :=
  if t = 1 then (14, 28, true) else if t = 2 then (24, 44, false) else if t = 3 then (10 + 10 * h, 40, false)
  else if t = 4 then (30, 48, true) else if t = 5 then (30, 48, true) else if t = 6 then (48, 96, false)
  else if t = 7 then (12, 24, true) else if t = 8 then (20, 36, true) else if t = 9 then (8, 16, true) else (0, 0, false)
/-- The closed-loop templates (R207). -/
def tplClosed (t : Nat) : Bool := t == 1 || t == 2 || t == 3 || t == 4 || t == 5 || t == 8

/-- What a run of an element starts from: its routine's template, harmonics and notch, coefficients, state words, the
latched inputs, SP, STEP, the last committed OUT0 and its clamp, and H_e where this is the first run after a close. -/
structure RunIn where
  t : Nat
  h : Nat
  notch : Bool
  k : Tbl Int
  st : Tbl Int
  inp : Nat → Int
  sp : Int
  step : Int
  out0 : Int
  clamp : Int
  preset : Option Int
/-- What a run leaves: OUT0 to OUT3, the state words, whether a limit acted. -/
structure RunOut where
  out : List Int
  st : Tbl Int
  clamp : Int

namespace RunIn
def kq (r : RunIn) (i : Nat) : Int := tget 0 r.k i
/-- A coefficient as a raw integer. -/
def kn (r : RunIn) (i : Nat) : Nat := ux 16 (r.kq i)
def s (r : RunIn) (i : Nat) : Int := tget 0 r.st i
end RunIn

/-- The dead zone of R219. -/
def dz (x db : Int) : Int := if (x.natAbs : Int) ≤ db then 0 else if 0 < x then x - db else x + db
/-- The error of a closed-loop template (Table 8.7). -/
def errOf (r : RunIn) : Sat Int :=
  if r.t = 4 then s16 (r.inp 0 - r.sp)
  else if r.t = 5 then do
    let x ← s16 (r.inp 0 - r.inp 2)
    let y ← s16 (x - r.sp)
    pure (dz y (r.kq 6))
  else if r.t = 8 then do
    let e ← s40 (mulQ r.sp r.sp - mulQ (r.inp 0) (r.inp 0))
    stq e
  else s16 (r.sp - r.inp 0)
/-- The measured value that Spline starts from at a close (Table 8.7). -/
def measOf (t : Nat) (inp : Nat → Int) : Int := if t = 5 then satI 16 (inp 0 - inp 2) else inp 0
/-- The notch on the error, and ST4 to ST7 after it (R221). -/
def notchRun (r : RunIn) (e : Int) (st : Tbl Int) : Sat (Int × Tbl Int) := do
  let x1 := tget 0 st 4
  let x2 := tget 0 st 5
  let y1 := tget 0 st 6
  let y2 := tget 0 st 7
  let num ← s40 (mulQ (r.kq 16) e + 2 * mulQ (r.kq 17) x1)
  let num ← s40 (num + mulQ (r.kq 18) x2)
  let num ← s40 (num * (2 ^ r.kn 21 : Nat))
  let acc ← s40 (num - 2 * mulQ (r.kq 19) y1)
  let acc ← s40 (acc - mulQ (r.kq 20) y2)
  let y ← stq acc
  pure (y, tset 0 (tset 0 (tset 0 (tset 0 st 4 e) 5 x1) 6 y) 7 y1)
/-- One harmonic of the resonant sum (R222): a_h in word 8 + h, b_h in word 14 + h, h from 0. -/
def resStep (r : RunIn) (eh : Int) (acc : Int × Tbl Int) (h : Nat) : Sat (Int × Tbl Int) := do
  let (sum, st) := acc
  let wh := r.kq (25 + 2 * h)
  let dw ← stq (mulQ wh (r.inp 2))
  let w ← s16 (wh + dw)
  let b := tget 0 st (14 + h)
  let bq ← stq b
  let a ← s40 (tget 0 st (8 + h) + mulQ (r.kq (24 + 2 * h)) eh)
  let a ← s40 (a - shrQ (mulQ w bq) (r.kn 7))
  let aq ← stq a
  let b ← s40 (b + shrQ (mulQ w aq) (r.kn 7))
  let sum ← s40 (sum + a)
  pure (sum, tset 0 (tset 0 st (8 + h) a) (14 + h) b)
/-- An output cut to OUT_LO and OUT_HI: the output, and on which side the limit acted (R220). -/
def limOut (r : RunIn) (u : Int) : Sat (Int × Int) := do
  let hi := r.kq 3 * 65536
  let lo := r.kq 4 * 65536
  let o ← stq (clampI lo hi u)
  pure (o, if hi < u then 1 else if u < lo then -1 else 0)
/-- The closed-loop templates (R220): I in ST0. -/
def closedRun (r : RunIn) : Sat RunOut := do
  let e ← errOf r
  let (eh, st) ← if r.t = 2 || r.notch then notchRun r e r.st else pure (e, r.st)
  let p ← s40 (mulQ (r.kq 0) eh * (2 ^ r.kn 5 : Nat))
  let (rs, st) ← if r.t = 3 then (List.range r.h).foldlM (resStep r eh) (0, st) else pure (0, st)
  let fb := decide (r.inp 7 ≠ 0)
  let d : Int := if r.clamp = 1 || (fb && decide (0 < r.out0)) then 1
    else if r.clamp = -1 || (fb && decide (r.out0 < 0)) then -1 else 0
  let lim := r.kq 2 * 65536
  let ff := r.inp 1 * 65536
  let i ← match r.preset with
    | some h => do
      let x ← s40 (h * 65536 - ff - p - rs)
      pure (clampI (-lim) lim x)
    | none => do
      let inc ← s40 (mulQ (r.kq 1) eh * r.step)
      if d = 0 || decide (sgn inc ≠ d) then do
        let x ← s40 (r.s 0 + inc)
        pure (clampI (-lim) lim x)
      else pure (r.s 0)
  let u ← s40 (p + rs)
  let u ← s40 (u + i)
  let u ← s40 (u + ff)
  let (o, c) ← limOut r u
  let iq ← stq i
  let rq ← stq rs
  pure { out := [o, iq, if r.t = 3 then rq else eh, if c = 0 then 0 else 0x7FFF], st := tset 0 st 0 i, clamp := c }
/-- The grid synchroniser (R223): α, β and Δf in ST0 to ST2. -/
def sogiRun (r : RunIn) : Sat RunOut := do
  let aq ← stq (r.s 0)
  let bq ← stq (r.s 1)
  let fq ← stq (r.s 2)
  let eps ← s16 (r.inp 0 - aq)
  let dw ← stq (mulQ (r.kq 9) fq)
  let w ← s16 (r.kq 9 + dw)
  let ke ← stq (2 * mulQ (r.kq 0) eps)
  let x ← s16 (ke - bq)
  let a ← s40 (r.s 0 + shrQ (mulQ w x) (r.kn 7))
  let aq ← stq a
  let b ← s40 (r.s 1 + shrQ (mulQ w aq) (r.kn 7))
  let bq ← stq b
  let eb ← stq (mulQ eps bq)
  let f ← s40 (r.s 2 - mulQ (r.kq 1) eb)
  let lim := r.kq 2 * 65536
  let f := clampI (-lim) lim f
  let fq ← stq f
  let mag ← stq (mulQ aq aq + mulQ bq bq)
  pure { out := [aq, bq, fq, mag], st := tset 0 (tset 0 (tset 0 r.st 0 a) 1 b) 2 f, clamp := 0 }
/-- Droop (R224): the filtered deviation in ST0. -/
def droopRun (r : RunIn) : Sat RunOut := do
  let fq ← stq (r.s 0)
  let dv ← s16 (r.inp 0 - r.inp 1)
  let x ← s16 (dv - fq)
  let f ← s40 (r.s 0 + mulQ x (r.kq 1) * r.step)
  let fq ← stq f
  let kp ← s40 (mulQ (r.kq 0) fq * (2 ^ r.kn 5 : Nat))
  let u ← s40 (r.sp * 65536 - kp)
  let (o, c) ← limOut r u
  pure { out := [o, fq, 0, 0], st := tset 0 r.st 0 f, clamp := c }
/-- Feed-forward (R224). -/
def ffRun (r : RunIn) : Sat RunOut := do
  let ka ← s40 (mulQ (r.kq 0) (r.inp 0) * (2 ^ r.kn 5 : Nat))
  let u ← s40 (r.sp * 65536 + ka)
  let u ← s40 (u + mulQ (r.kq 1) (r.inp 1))
  let u ← s40 (u + mulQ (r.kq 6) (r.inp 2))
  let (o, c) ← limOut r u
  pure { out := [o, 0, 0, 0], st := r.st, clamp := c }
/-- A template routine. -/
def tplRun (r : RunIn) : Sat RunOut :=
  if tplClosed r.t then closedRun r else if r.t = 6 then sogiRun r else if r.t = 7 then droopRun r else ffRun r

/-- A coefficient set is valid for its template (R216, Table 8.4). -/
def coefOk (t h : Nat) (notch : Bool) (k : Tbl Int) : Bool :=
  let q := fun (i : Nat) => tget 0 k i
  let n := fun (i : Nat) => ux 16 (q i)
  (!(tplClosed t || t == 7 || t == 9) || decide (q 4 < q 3)) &&
  (!tplClosed t || (decide (0 ≤ q 2) && decide (n 5 ≤ 7))) &&
  (!(t == 2 || notch) || (decide (n 21 ≤ 1) && decide (q 20 < 0x7FFF) &&
    decide (((2 * q 19).natAbs : Int) < 32768 + q 20))) &&
  (!(t == 3) || (decide (n 7 ≤ 8) && (List.range h).all (fun i => decide (1 ≤ q (25 + 2 * i))))) &&
  (!(t == 5) || decide (0 ≤ q 6)) &&
  (!(t == 6) || (decide (n 7 ≤ 8) && decide (1 ≤ q 9) && decide (1 ≤ q 0) && decide (1 ≤ q 2))) &&
  (!(t == 7 || t == 9) || decide (n 5 ≤ 7))

/-- One step of Spline: y and v after it (R226). An acceleration of 0 stands for ACCEL.EN = 0. -/
def splineStep (y v t slew acc : Int) : Int × Int :=
  let e := t - y
  let v' :=
    if acc = 0 then clampI (-slew) slew e
    else
      let s := sgn e
      let av : Int := v.natAbs
      let ae : Int := e.natAbs
      let vd := if 0 < v * s ∧ 2 * acc * ae ≤ av * (av + acc) then v - s * acc else s * slew
      let w := clampI (-slew) slew (clampI (v - acc) (v + acc) vd)
      if 0 ≤ w * s ∧ ae ≤ w.natAbs then e else w
  (y + v', if y + v' = t then 0 else v')

/-- The fields of an expert instruction (R201). -/
def xOp (w : Nat) : Nat := bits w 31 26
def xA (w : Nat) : Nat := bits w 25 24
def xS1 (w : Nat) : Nat := bits w 23 16
def xS2 (w : Nat) : Nat := bits w 15 8
def xD (w : Nat) : Nat := bits w 7 0
/-- Operand codes allowed as a source and as a destination (Table 7.6). -/
def srcOk (c : Nat) : Bool := c < 0x20 || (0x40 ≤ c && c < 0x80)
def dstOk (c : Nat) : Bool := c < 0x10 || (0x18 ≤ c && c < 0x1C)
def stOk (c : Nat) : Bool := 0x20 ≤ c && c < 0x28
/-- An instruction that Tables 7.6 and 7.7 allow (R203). -/
def insOk (w : Nat) : Bool :=
  let o := xOp w
  let a := xA w
  let s1 := xS1 w
  let s2 := xS2 w
  let dd := xD w
  if o = 0x00 || o = 0x3F then a = 0 && s1 = 0 && s2 = 0 && dd = 0
  else if 1 ≤ o && o ≤ 4 then srcOk s1 && srcOk s2 && dd = 0
  else if o = 0x08 then stOk s1 && s2 = 0 && dd = 0
  else if o = 0x09 then srcOk s1 && s2 = 0 && dd = 0
  else if o = 0x0A then s1 = 0 && s2 = 0 && stOk dd
  else if o = 0x0B || o = 0x0C then s1 < 4 && s2 = 0 && dd = 0
  else if o = 0x0D then s1 = 0 && s2 = 0 && (dd ≤ 8 || 248 ≤ dd)
  else if o = 0x0E then srcOk s1 && s2 = 0 && dd < 8
  else if o = 0x10 then s1 = 0 && s2 = 0 && dstOk dd
  else if o = 0x11 || o = 0x16 || o = 0x17 then a = 0 && srcOk s1 && s2 = 0 && dstOk dd
  else if 0x12 ≤ o && o ≤ 0x15 || o = 0x19 then a = 0 && srcOk s1 && srcOk s2 && dstOk dd
  else if o = 0x18 then a = 0 && srcOk s1 && srcOk s2 && dd = 0
  else false
/-- What an instruction reads and writes, as register numbers: operand codes, 0x80 + A for accumulators, 0x90 for
FLAG. -/
def insReads (w : Nat) : List Nat :=
  let o := xOp w
  let acc := 0x80 + xA w
  if o = 1 || o = 2 || o = 4 then [acc, xS1 w, xS2 w]
  else if o = 3 then [xS1 w, xS2 w]
  else if o = 8 || o = 9 then [xS1 w]
  else if o = 0x0A || o = 0x0D || o = 0x10 then [acc]
  else if o = 0x0B || o = 0x0C then [acc, 0x80 + xS1 w]
  else if o = 0x0E then [acc, xS1 w]
  else if o = 0x11 || o = 0x16 || o = 0x17 then [xS1 w]
  else if o = 0x19 then [0x90, xS1 w, xS2 w]
  else if 0x12 ≤ o && o ≤ 0x18 then [xS1 w, xS2 w]
  else []
def insWrites (w : Nat) : List Nat :=
  let o := xOp w
  if (1 ≤ o && o ≤ 4) || o = 8 || o = 9 || o = 0x0B || o = 0x0C || o = 0x0D then [0x80 + xA w]
  else if o = 0x0E then [0x80 + xA w, 0x90]
  else if o = 0x0A || o = 0x10 || o = 0x11 || (0x12 ≤ o && o ≤ 0x17) || o = 0x19 then [xD w]
  else if o = 0x18 then [0x90]
  else []
/-- The latency of an instruction (R202). -/
def insLat (w : Nat) : Nat := if 1 ≤ xOp w && xOp w ≤ 4 then 4 else 2
/-- The schedule of a routine alone on unlimited lanes (R186, R204): when each register is ready, the last issue of an
instruction that read or wrote it plus 1, and the last completion. -/
structure Sched where
  ready : Tbl Nat := []
  free : Tbl Nat := []
  last : Nat := 0
def schedStep (s : Sched) (w : Nat) : Sched :=
  let rd := insReads w
  let wr := insWrites w
  let t := (wr.map (tget 0 s.free)).foldl max ((rd.map (tget 0 s.ready)).foldl max 0)
  let d := t + insLat w
  { ready := wr.foldl (fun m x => tset 0 m x d) s.ready
    free := (rd ++ wr).foldl (fun m x => tset 0 m x (max (t + 1) (tget 0 m x))) s.free
    last := max s.last d }
/-- OPS and CP of the instructions before END (R204). -/
def xCost (l : List Nat) : Nat × Nat := (l.length, (l.foldl schedStep {}).last + 6)

/-- An expert run under way: X, ACC, FLAG, OUT and ST. -/
structure XState where
  x : Tbl Int := []
  acc : Tbl Int := []
  flag : Bool := false
  out : List Int
  st : Tbl Int
/-- A source operand (Table 7.6). -/
def xSrc (r : RunIn) (elem : Nat) (s : XState) (c : Nat) : Int :=
  if c < 0x10 then tget 0 s.x c
  else if c < 0x18 then r.inp (c - 0x10)
  else if c < 0x1C then listGet s.out (c - 0x18)
  else if c = 0x1C then r.sp
  else if c = 0x1D then elem
  else if c = 0x1E then r.step
  else if 0x40 ≤ c then r.kq (c - 0x40)
  else 0
/-- Writes a 16-bit destination. -/
def xPut (s : XState) (c : Nat) (v : Int) : XState :=
  if c < 0x10 then { s with x := tset 0 s.x c v } else { s with out := s.out.set (c - 0x18) v }
/-- One instruction (Table 7.7). -/
def xIns (r : RunIn) (elem : Nat) (s : XState) (w : Nat) : Sat XState := do
  let o := xOp w
  let a := xA w
  let acc := tget 0 s.acc a
  let v1 := xSrc r elem s (xS1 w)
  let v2 := xSrc r elem s (xS2 w)
  let putA := fun (v : Int) => do
    let v ← s40 v
    pure { s with acc := tset 0 s.acc a v }
  let put := fun (v : Int) => do
    let v ← s16 v
    pure (xPut s (xD w) v)
  if o = 1 then putA (acc + mulQ v1 v2)
  else if o = 2 then putA (acc - mulQ v1 v2)
  else if o = 3 then putA (mulQ v1 v2)
  else if o = 4 then putA (acc + mulQ v1 v2 * r.step)
  else if o = 8 then pure { s with acc := tset 0 s.acc a (tget 0 s.st (xS1 w - 0x20)) }
  else if o = 9 then putA (v1 * 65536)
  else if o = 0x0A then pure { s with st := tset 0 s.st (xD w - 0x20) acc }
  else if o = 0x0B then putA (acc + tget 0 s.acc (xS1 w % 4))
  else if o = 0x0C then putA (acc - tget 0 s.acc (xS1 w % 4))
  else if o = 0x0D then
    let n := sx 8 (xD w)
    putA (if 0 ≤ n then acc * (2 ^ n.toNat : Nat) else shrQ acc (-n).toNat)
  else if o = 0x0E then do
    let lim ← s40 ((v1.natAbs : Int) * (2 ^ (16 + xD w % 8) : Nat))
    let c := clampI (-lim) lim acc
    pure { s with acc := tset 0 s.acc a c, flag := decide (c ≠ acc) }
  else if o = 0x10 then put ((acc + 32768) / 65536)
  else if o = 0x11 then put v1
  else if o = 0x12 then put (v1 + v2)
  else if o = 0x13 then put (v1 - v2)
  else if o = 0x14 then put (min v1 v2)
  else if o = 0x15 then put (max v1 v2)
  else if o = 0x16 then put v1.natAbs
  else if o = 0x17 then put (-v1)
  else if o = 0x18 then pure { s with flag := decide (v1 < v2) }
  else if o = 0x19 then put (if s.flag then v1 else v2)
  else pure s
/-- An expert routine (R186, R202). -/
def xRun (r : RunIn) (elem : Nat) (out : List Int) (code : List Nat) : Sat RunOut := do
  let s ← code.foldlM (xIns r elem) { out := out, st := r.st }
  pure { out := s.out, st := s.st, clamp := 0 }

end Sys2Proof.Machine
end

