-- ==== Sys2Proof/Machine/Vertex.lean ====
section
/-! DEFINITION. Vertex cell scheduling (chapter 06): the latch at L_n, heat headroom, energy error, health, shares,
trims, rest and rotation, withdrawal and redundancy. -/

namespace Sys2Proof.Machine

/-- The role code of Table 6.6. -/
def Role.code : Role → Nat
  | .absent => 0
  | .sharing => 1
  | .resting => 2
  | .starting => 3
  | .leaving => 4
  | .out => 5
/-- The health code of Table 6.6. -/
def Health.code : Health → Nat
  | .good => 0
  | .watch => 1
  | .leaving => 2

/-- What Vertex works on for one cell in one block. -/
structure VWork where
  k : Nat
  pos : Nat
  role : Role
  health : Health
  h : Rat
  eps : Rat
  eta : Rat
  kf : Rat
  gPrev : Rat
  gx : Rat
  law : Int
  since : Nat
  age : Nat
  w : Rat
  /-- stands for a weight where the spec divides a sum in proportion to weights that are all 0; free [5] -/
  alt : Nat
  tgt : Rat
  fixed : Bool
  g : Nat

/-- The cell with the smallest value of a list, the first of equals. -/
def argMin (l : List VWork) (f : VWork → Rat) : Option VWork :=
  l.foldl (fun a x => match a with
    | none => some x
    | some b => if f x < f b then some x else some b) none
def setRole (l : List VWork) (k : Nat) (r : Role) : List VWork :=
  l.map (fun x => if x.k = k then { x with role := r } else x)
def sharers (l : List VWork) : List VWork := l.filter (fun x => x.role == .sharing)

/-- The part of one cell in proportion to the values v of a list with sum sv; where all are 0 the spec states no
division, and it goes by free weights [5]. -/
def part (sv : Rat) (l : List VWork) (v : Rat) (x : VWork) : Rat :=
  if sv = 0 then (x.alt : Rat) / sumR (l.map (fun y => (y.alt : Rat))) else v / sv

/-- The limiting of R156: cells above the cap are fixed at it, the rest is divided again, until none exceeds it. -/
def capLoop (total cap : Rat) : Nat → List VWork → List VWork
  | 0, l => l
  | n + 1, l =>
    let fixedSum := sumR ((l.filter (·.fixed)).map (fun _ => cap))
    let free := l.filter (fun x => !x.fixed)
    let sw := sumR (free.map (·.w))
    let l' := l.map (fun x =>
      if x.fixed then { x with tgt := cap } else { x with tgt := (total - fixedSum) * part sw free x.w x })
    if l'.any (fun x => !x.fixed && decide (cap < x.tgt)) then
      capLoop total cap n (l'.map (fun x => if !x.fixed && decide (cap < x.tgt) then { x with fixed := true, tgt := cap } else x))
    else l'

/-- Truncation to Q5.11 with the removed units added back, largest remainder first, lower position on a tie (R157). -/
def quantise (total : Nat) (l : List (VWork × Rat)) : List VWork :=
  let tr : List (VWork × Nat × Rat) := l.map (fun p => (p.1, (p.2 * 2048).floor.toNat, p.2 * 2048 - ((p.2 * 2048).floor : Rat)))
  let miss := total * 2048 - sumN (tr.map (fun t => t.2.1))
  let order := tr.mergeSort (fun a b => decide (b.2.2 < a.2.2) || (decide (b.2.2 = a.2.2) && decide (a.1.pos ≤ b.1.pos)))
  let up := (order.take miss).map (fun t => t.1.k)
  tr.map (fun t => { t.1 with g := t.2.1 + b2n (up.contains t.1.k) })

/-- The block values of a string that its registers show, as they are published (R148, R428). -/
def VStr.shown (x : VStr) : VStr := { x with iBlkPub := x.iBlk, pBarPub := x.pBar, vActPub := x.vAct }

namespace Dev

/-- A real as Q1.15: rounded at a site, and kept in the format's range (R152). DEDUCED [76]. -/
def q15At (site : Nat) (x : Rat) : Rat := (satI 16 (Config.roundAt site (x * 32768)) : Rat) / 32768
/-- A commit's contribution to the block of a string (Table 6.1). -/
def vertexObserve (d : Dev) (m s : Nat) : Dev :=
  let v := d.ctxOut (d.vCtx s) 0 0
  let d := d.updStr s (fun x => { x with vBlk := max x.vBlk v.natAbs })
  match (d.lk (d.curCell s)).samp.find? (fun p => p.1 == 3) with
  | some (_, i, idx) =>
    if idx = m then
      let r : Rat := (i : Rat) / 131072
      d.updStr s (fun x => { x with
        n := x.n + 1, sumI2 := x.sumI2 + r * r, sumI := x.sumI + (if r < 0 then -r else r)
        sumP := x.sumP + r * v / 32768 })
    else d
  | none => d

/-- The inputs of one cell at L_n (Table 6.1). -/
def latchCell (s : Nat) (d : Dev) (k : Nat) : Dev :=
  let n := d.sensor (20 + 3 * k)
  let others := [d.sensor (21 + 3 * k), d.sensor (22 + 3 * k)]
  let p := k - d.strFirst s
  let wd := d.flag 0x1E (0x8C + 0x20 * s) p
  let i : VIn := {
    svc := d.inSvc k
    starting := (d.ch k).mode == .starting || (d.ch k).mode == .retreat
    leave := (d.vc k).leave || wd
    cause := (d.vc k).cause
    suspect := n.suspect || others.any (·.suspect)
    stale := (d.lk k).bsStale
    v := ((d.lk k).samp.find? (fun q => q.1 == 0)).map (fun q => q.2.1)
    ntc := if n.known then some (n.val / 8) else none
    hw := d.hwOf k, k := d.kOf k, nTr := (d.ch k).nTr
    law := d.ctxOut (d.dabCtx s) p 0
    gx := ((d.shareOf s k).getD 0) / 2048
    aged := d.ageStands k, sub := n.suspect, wd := wd }
  (d.updCell k (fun c => { c with inp := i, cause := false })).updChord k (fun c => { c with nTr := 0 })
/-- Vertex latches the inputs of a string (R148, R150, R152). -/
def latchStr (d : Dev) (s : Nat) : Dev :=
  let x := d.vs s
  let (i2, d) := d.meanR x.sumI2 x.n
  let (ia, d) := d.meanR x.sumI x.n
  let (pb, d) := d.meanR x.sumP x.n
  let pb := q15At 26 pb
  let hist := x.vBlk :: x.vHist.take 95
  let d := d.updStr s (fun x => { x with
    iBlk := i2, iAbs := ia, pBar := pb, vHist := hist, vAct := maxI 0 hist, n := 0, sumI2 := 0, sumI := 0, sumP := 0, vBlk := 0 })
  d.each (d.strCells s) (latchCell s)

/-- The junction rise, its filter, the headroom and the heat factor of a cell (R150, R151). -/
def heatCell (d : Dev) (s k : Nat) : Dev :=
  let c := d.vc k
  let i := c.inp
  let x := d.vs s
  if !i.svc then d.updCell k (fun c => { c with dtjOn := false })
  else
    let j := d.rd 0x1E 0x34
    let kc : Rat := (bits j 31 24 : Nat) / 4
    let ks : Rat := (bits j 23 16 : Nat) / 4
    let kp : Rat := (bits j 15 8 : Nat) / 4
    let full : Rat := 4 * 245760 / (d.fld 0x18 0x60 19 0 : Nat)
    let si : Rat := if c.role == .resting then 0 else (i.nTr : Rat) / full
    let p := i.gx * (if x.pBar < 0 then -x.pBar else x.pBar)
    let th := kc * x.iBlk + ks * si * x.iAbs + kp * p * p
    let tau := d.fld 0x1E 0x30 3 0
    let dt := if c.dtjOn then c.dtj + (th - c.dtj) / (2 ^ tau : Nat) else th
    let lim : Rat := (d.fld 0x1E 0x30 31 20 : Nat) / 8
    match i.ntc with
    | none => d.updCell k (fun c => { c with dtj := dt, dtjOn := true, subst := true })
    | some t =>
      let tj := t + dt
      let h := match i.hw with
        | some w => min (lim - tj) w
        | none => lim - tj
      d.updCell k (fun c => { c with
        dtj := dt, dtjOn := true, tj := tj, h := if i.stale then c.h else h, subst := i.stale || i.sub })
def etaOf (d : Dev) (h : Rat) : Rat :=
  let hf : Rat := (d.fld 0x1E 0x2C 31 16 : Nat) / 8
  let hz : Rat := (d.fld 0x1E 0x2C 15 0 : Nat) / 8
  clampR ((d.fld 0x1E 0x28 31 16 : Nat) / 32768) 1 ((h - hz) / (hf - hz))
/-- The health of a cell at a block (R153, R167, R168). -/
def healthCell (now : Nat) (d : Dev) (k : Nat) : Dev :=
  let c := d.vc k
  let i := c.inp
  if !i.svc then d.updCell k (fun c => { c with health := .good, clean := 0, leave := false })
  else if i.leave then
    if c.health == .leaving then d else d.updCell k (fun c => { c with health := .leaving, bypDue := true, wdDue := i.wd })
  else
    let cause := i.cause || i.stale || i.suspect || i.aged
    if cause then
      let d := if c.health == .good then d.raiseLog now 0x1E 7 k else d
      d.updCell k (fun c => { c with health := .watch, clean := 0 })
    else
      let done := c.health == .watch && decide (d.fld 0x1E 0x48 15 0 ≤ c.clean + 1)
      d.updCell k (fun c => { c with clean := c.clean + 1, health := if done then .good else c.health })

/-- The energy error of a cell in Q1.15 (R152): 0 where there is no sample, or no mean to compare with. -/
def epsOf (wbar : Rat) (v : Option Int) : Rat :=
  match v with
  | some x => if wbar = 0 then 0 else q15At 15 ((x * x : Int) / wbar - 1)
  | none => 0
/-- The role of a cell at a block before any rest decision (R147). -/
def roleOf (d : Dev) (k : Nat) : Role :=
  let c := d.vc k
  if !c.inp.svc then .out
  else if c.inp.starting then .starting
  else if c.health == .leaving then .leaving
  else if c.role == .resting then .resting
  else .sharing
/-- The working list of a string. -/
def workOf (d : Dev) (s : Nat) : List VWork :=
  let cells := d.strCells s
  let ws := (cells.filter (fun k => (d.vc k).inp.svc && !(d.vc k).inp.starting)).filterMap
    (fun k => (d.vc k).inp.v.map (fun (x : Int) => ((x * x : Int) : Rat)))
  let wbar : Rat := if ws.isEmpty then 0 else sumR ws / ws.length
  cells.map (fun k =>
    let c := d.vc k
    let e := epsOf wbar c.inp.v
    { k := k, pos := k - d.strFirst s, role := d.roleOf k, health := c.health, h := c.h, eps := e
      eta := d.etaOf c.h, kf := c.inp.k, gPrev := 0, gx := c.inp.gx, law := c.inp.law
      since := min 65535 (c.sinceRest + 1), age := min 65535 (c.age + 1), w := 0, alt := Config.freeNat (d.free + (k - d.strFirst s)) + 1, tgt := 0, fixed := false, g := 0 })

/-- Whether rest is allowed in a string (R159), with the light-load count moved on by this block. -/
def lightStep (d : Dev) (s : Nat) : Dev :=
  let x := d.vs s
  let sq := fun (n : Nat) => ((n * n : Nat) : Rat) / 1073741824
  let on := sq (d.fld 0x1E (0x88 + 0x20 * s) 15 0)
  let off := sq (d.fld 0x1E (0x88 + 0x20 * s) 31 16)
  let n := if x.iBlk ≤ on then min 16 (x.light + 1) else 0
  d.updStr s (fun y => { y with light := n, isLight := if off < x.iBlk then false else x.isLight || n == 16 })
def restAllowed (d : Dev) (s : Nat) : Bool :=
  d.flag 0x1E 0x20 0 && d.flag 0x1E 0x20 1 && d.fld 0x1E (0x84 + 0x20 * s) 3 0 != 0 && (d.vs s).isLight
/-- The number of cells that may rest (R159). -/
def restMax (d : Dev) (s : Nat) (l : List VWork) : Nat :=
  if d.restAllowed s then
    let av := (l.filter (fun x => x.role == .sharing || x.role == .resting)).length
    let u := d.fld 0x1E (0x80 + 0x20 * s) 15 0
    let need := (d.strCount s * (d.vs s).vAct.toNat + u - 1) / u + d.fld 0x1E (0x84 + 0x20 * s) 11 8
    min (d.fld 0x1E (0x84 + 0x20 * s) 3 0) (av - need)
  else 0
/-- A sharing cell that R160 would allow to rest: the one with the smallest headroom. -/
def restCand (d : Dev) (l : List VWork) : Option VWork :=
  let ep : Rat := (d.fld 0x1E 0x50 15 0 : Nat) / 32768
  argMin ((sharers l).filter (fun x =>
    decide (x.eps ≤ ep ∧ -ep ≤ x.eps) && x.health != .leaving && decide (d.fld 0x1E 0x44 15 0 ≤ x.since))) (·.h)
/-- R162: a resting cell whose energy error is too large returns. -/
def restForce (d : Dev) (l : List VWork) : List VWork :=
  let ep : Rat := 2 * (d.fld 0x1E 0x50 15 0 : Nat) / 32768
  l.map (fun x => if x.role == .resting && decide (ep < x.eps ∨ x.eps < -ep) then { x with role := .sharing } else x)
/-- Returns the n resting cells with the largest headroom (R160). -/
def restReturn : Nat → List VWork → List VWork
  | 0, l => l
  | n + 1, l =>
    match argMin (l.filter (fun x => x.role == .resting)) (fun x => -x.h) with
    | some x => restReturn n (setRole l x.k .sharing)
    | none => l
/-- R160 and R161, after the returns of R162; true where a cell may enter rest. -/
def restStep (d : Dev) (s : Nat) (l : List VWork) (enter : Bool) : List VWork × Bool :=
  let n := (l.filter (fun x => x.role == .resting)).length
  let mx := d.restMax s l
  if mx < n then (restReturn (n - mx) l, false)
  else if n < mx then
    match (if enter then d.restCand l else none) with
    | some q => (setRole l q.k .resting, false)
    | none => (l, false)
  else if 0 < n then
    let rot := d.fld 0x1E 0x44 15 0
    let hyst : Rat := (d.fld 0x1E 0x44 31 16 : Nat) / 8
    match argMin (l.filter (fun x => x.role == .resting && decide (rot ≤ x.age))) (fun x => -x.h), (if enter then d.restCand l else none) with
    | some r, some q => if q.h + hyst ≤ r.h then (setRole (setRole l r.k .sharing) q.k .resting, true) else (l, false)
    | _, _ => (l, false)
  else (l, false)

/-- The starting vector of a string's shares (R155). -/
def startVec (count : Nat) (prevE : List Nat) (e : List VWork) : List VWork :=
  let ks := e.map (·.k)
  let n := e.length
  if ks = prevE then e.map (fun x => { x with gPrev := x.gx })
  else
    let stay := e.filter (fun x => prevE.contains x.k)
    let join := n - stay.length
    let each : Rat := (count : Rat) / n
    let sum := sumR (stay.map (·.gx))
    let rest := (count : Rat) - join * each
    e.map (fun x => { x with gPrev := if prevE.contains x.k then rest * part sum stay x.gx x else each })
/-- The weight of a sharing cell, at 32 bits (R154). DESIGN CHOICE [76]: 30 of them are fraction bits. -/
def weight (d : Dev) (sigma : Int) (x : VWork) : VWork :=
  let chi : Rat := if x.health == .watch then (d.fld 0x1E 0x28 15 0 : Nat) / 32768 else 1
  let am : Rat := (d.fld 0x1E 0x38 15 0 : Nat) / 32768
  let ke : Rat := (d.fld 0x1E 0x38 31 16 : Nat) / 4096
  { x with w := (Config.roundAt 27 (chi * x.eta * x.kf * (1 + clampR (-am) am (-sigma * ke * x.eps)) * 1073741824) : Rat) / 1073741824 }
/-- The shares of a string's sharing cells (R154 to R157, R149, R171). -/
def shares (d : Dev) (s : Nat) (e : List VWork) : List VWork × Bool :=
  let count := d.strCount s
  let n := e.length
  let x := d.vs s
  if !d.flag 0x1E 0x20 0 then (quantise count (e.map (fun y => ({ y with tgt := (count : Rat) / n }, (count : Rat) / n))), false)
  else
    let dead : Rat := (d.fld 0x1E 0x4C 15 0 : Nat) / 32768
    let sigma : Int := if dead < x.pBar then 1 else if x.pBar < -dead then -1 else 0
    let e := startVec count x.prevE e
    let e := e.map (d.weight sigma)
    let sw := sumR (e.map (·.w))
    let cap : Rat := max ((d.fld 0x1E 0x3C 31 16 : Nat) / 2048) ((count : Rat) / n)
    let froz := d.flag 0x1E 0x400 0
    let e := if froz then e.map (fun y => { y with tgt := (d.vc y.k).gTgt, fixed := (d.vc y.k).capped })
      else if sw = 0 then e.map (fun y => { y with tgt := y.gPrev })
      else capLoop count cap n e
    let mx := (e.map (fun y => if y.tgt < y.gPrev then y.gPrev - y.tgt else y.tgt - y.gPrev)).foldl max 0
    let slew : Rat := (d.fld 0x1E 0x3C 15 0 : Nat) / 2048
    let lam : Rat := if froz then 0 else if mx ≤ slew then 1 else slew / mx
    (quantise count (e.map (fun y => (y, y.gPrev + lam * (y.tgt - y.gPrev)))), !froz && decide (sw = 0))
/-- The phase trim of a cell, raw Q1.15 (R158). -/
def trimOf (d : Dev) (count n : Nat) (phBar : Rat) (x : VWork) : Int :=
  let kd : Rat := (d.fld 0x1E 0x40 31 16 : Nat) / 4096
  let mx : Int := (d.fld 0x1E 0x40 15 0 : Nat)
  let g : Rat := if count = 0 then 0 else (x.g : Rat) / 2048 * n / count
  clampI (-mx) mx (Config.roundAt 14 ((g - 1) * phBar + kd * x.eps * 32768))

/-- What a block publishes for one cell. -/
def publishCell (bn : Nat) (trimFn : VWork → Int) (froz : Bool) (d : Dev) (x : VWork) : Dev :=
  let c := d.vc x.k
  let wasRest := c.role == .resting
  let d := d.updCell x.k (fun c => { c with
    age := if c.role == x.role then min 65535 (c.age + 1) else 0
    role := x.role, g := x.g, gTgt := x.tgt, capped := x.fixed
    eps := (x.eps * 32768).floor
    ph := if x.role == .out then 0 else if froz then c.ph else trimFn x
    sinceRest := if wasRest && x.role != .resting then 0 else min 65535 (c.sinceRest + 1) })
  if x.role == .resting && !wasRest then d.updChord x.k (fun h => { h with restAt := some (16 * bn), backAt := none })
  else if wasRest && x.role != .resting then
    d.updChord x.k (fun h => if h.restPk.isSome then { h with backAt := some (16 * bn) } else { h with restAt := none })
  else d
/-- Vertex publishes the block of a string (R147 to R165). -/
def publishStr (now bn : Nat) (d : Dev) (s : Nat) : Dev :=
  let d := d.each (d.strCells s) (fun d k => (d.heatCell s k).healthCell now k)
  let froz := d.flag 0x1E 0x400 0
  let l0 := d.workOf s
  let d := { d with free := d.free + 16 }
  let n0 := ((d.strCells s).filter (fun k => (d.vc k).role == .resting)).length
  let l1 := d.restForce l0
  let d := if froz then d else d.lightStep s
  let (l2, rot) := if froz then (l1, false) else d.restStep s l1 (decide (l1.map (·.role) = l0.map (·.role)))
  let nRest := fun (l : List VWork) => (l.filter (fun x => x.role == .resting)).length
  let d := if nRest l0 ≠ n0 || nRest l1 ≠ nRest l0 || nRest l2 ≠ nRest l1 then d.raise 0x1E 0 else d
  let d := if rot then d.raise 0x1E 1 else d
  let e := sharers l2
  let (e', noshare) := if e.isEmpty then (e, false) else d.shares s e
  let l3 := l2.map (fun x => (e'.find? (fun y => y.k == x.k)).getD x)
  let phBar : Rat := if froz then (d.vs s).phBar else if e.isEmpty then 0 else ((e.map (·.law)).foldl (· + ·) 0 : Int) / (e.length : Rat)
  let trimFn := fun (x : VWork) => if d.flag 0x1E 0x20 0 && d.flag 0x1E 0x20 2 then d.trimOf (d.strCount s) e.length phBar x else 0
  let capped := e'.any (·.fixed)
  let d := l3.foldl (publishCell bn trimFn froz) d
  let d := if capped then d.raise 0x1E 5 else d
  let d := if noshare then d.raise 0x1E 6 else d
  let d := d.updStr s (fun x => { x.shown with
    phBar := phBar, capped := capped, noshare := noshare, prevE := e.map (·.k), restOk := d.restAllowed s
    watch := x.watch || decide (d.nMin s ≤ d.nSvcOf s), exh := x.exh && decide (d.nSvcOf s < d.nMin s) })
  d.svcCheck now s
/-- Cells of no enabled string, and every cell outside RUN, hold no share and no trim (R149). -/
def idleCell (d : Dev) (k : Nat) : Dev :=
  let r : Role := if (d.strOf k).isSome then .out else .absent
  d.updCell k (fun c => { c with
    role := r, g := 0, gTgt := 0, ph := 0, capped := false, health := .good, clean := 0, leave := false, dtjOn := false
    age := if c.role == r then min 65535 (c.age + 1) else 0
    sinceRest := if c.role == .resting then 0 else min 65535 (c.sinceRest + 1) })
/-- Vertex does not compute: every cell idles, and what counts blocks of computation starts again (R149, R155, R159). -/
def vertexIdle (d : Dev) : Dev :=
  let d := d.each (List.range 4) (fun d s => d.updStr s (fun x => { x.shown with
    prevE := [], light := 0, isLight := false, capped := false, noshare := false, restOk := false }))
  d.each (List.range 48) idleCell
/-- VERTEX_PUBLISH (R148, R149): the first block in RUN is the first whose latch fell in RUN (R392). -/
def doVertexPublish (d : Dev) (now n : Nat) : Dev :=
  if n < 2 || !d.domOn 3 then d
  else
    let run := d.stage == .run && d.vLat
    let d := { d with vBlk := n, vRun := run }
    if run then
      let d := d.each d.strings (fun d s => (publishStr now (blockAt n) d s).rephase s)
      let d := if d.diag.pt.running && (d.vc d.diag.pt.cell).role != .sharing then d.ptAbort now else d
      d.each ((List.range 48).filter (fun k => (d.strOf k).isNone)) idleCell
    else (if d.diag.pt.running then d.ptAbort now else d).vertexIdle
/-- VERTEX_LATCH: the inputs of every block are latched, and its intervals end, in every stage (R148, Table 6.1). -/
def doVertexLatch (d : Dev) : Dev :=
  if d.domOn 3 then { (d.each d.strings latchStr) with vLat := d.stage == .run } else d
/-- The BYPASS of the cells that became LEAVING, at the first commit after the block, whatever holds that decision and
others place on them before it (R29, R167, R168). -/
def bypassDue (d : Dev) (now : Nat) : Dev :=
  let due := (List.range 48).filter (fun k => (d.vc k).bypDue)
  let go := due.filter (fun k => (d.strOf k).isSome && (d.lk k).st == .active && d.stage == .run)
  let d := d.each due (fun d k => d.updCell k (fun c => { c with bypDue := false }))
  d.each go (fun d k =>
    let wd := match d.strOf k with
      | some s => (d.vc k).wdDue || d.flag 0x1E (0x8C + 0x20 * s) (k - d.strFirst s)
      | none => false
    let d := if wd then d.modHull (fun h => { h with withdrawn := tset false h.withdrawn k true }) else d
    d.place now k .bypass)

end Dev

/-- VERTEX_LATCH (R148). -/
def execVertexLatch (n : Nat) (s : State) : Host.Outcome State Fault Refusal :=
  onDev s (fun _ d => if 2 ≤ n then d.doVertexLatch else d)
/-- VERTEX_PUBLISH (R147 to R165). -/
def execVertexPublish (n : Nat) (s : State) : Host.Outcome State Fault Refusal :=
  onDev s (fun t d => d.doVertexPublish t n)

end Sys2Proof.Machine
end

