-- ==== Sys2Proof/Machine/Pilot.lean ====
section
/-! DEFINITION. What a pilot-tone run takes while it runs (R260, R261): the tone of each commit, the excitation, and
the response samples at their true instants. -/

namespace Sys2Proof.Machine
namespace Dev

/-- The length of a pilot window in ns. -/
def ptWindow (d : Dev) : Rat := (d.diag.pt.ncyc : Rat) * 1000000000 / d.diag.pt.freq
def modPt (d : Dev) (f : PtRun → PtRun) : Dev := d.modDiag (fun g => { g with pt := f g.pt })
/-- The tone of commit m (R260); the first commit after submission sets T0. -/
def ptTone (d : Dev) (m : Nat) : Dev :=
  let t := d.diag.pt
  if !t.running then d
  else
    let e := d.tm m + d.lat.lat
    let t0 := t.t0.getD e
    let past := decide ((t0 : Rat) + (t.navg + 1 : Nat) * d.ptWindow ≤ e)
    let x : Rat := (t.amp : Rat) * Config.sinR (2 * Config.piR * t.freq * ((e - t0 : Nat) : Rat) / 1000000000)
    d.modPt (fun p => { p with t0 := some t0, tone := if past then 0 else rnd x })
/-- The excitation actually committed, and the commits that discard their window (R261). -/
def ptExcite (d : Dev) (m : Nat) : Dev :=
  let t := d.diag.pt
  if !t.running then d
  else
    let e := d.tm m + d.lat.lat
    let c := d.ch t.cell
    let bad := if t.mode = 4 then c.limU else c.limPh
    let per := d.fld (chordPage t.cell) 0x38 19 0
    let ph := c.phRaw
    let redis := match d.strOf t.cell with
      | some s => (d.strCells s).any (fun k => (d.vc k).g != 0 && !d.inSvc k)
      | none => true
    d.modPt (fun p => { p with
      ex := if p.mode = 4 then p.ex else { t := ((8 * e + per - 1) / per * per : Nat) / (8 : Rat), v := ph } :: p.ex
      badT := if bad || redis then (e : Rat) :: p.badT else p.badT
      phSum := p.phSum + ph, phN := p.phN + 1 })
/-- A node sample that the run takes: QTY 1 at DAB period boundaries, QTY 0, QTY 3 of the string-current cell, QTY 6
of the enabled legs (R262). -/
def ptNode (d : Dev) (k qty : Nat) (v : Int) (t : Nat) : Dev :=
  let r := d.diag.pt
  if !r.running || r.t0.isNone then d
  else
    let per := d.fld (chordPage r.cell) 0x38 19 0
    let s : PtSample := { t := t, v := v }
    let cur := match d.strOf r.cell with
      | some s => decide (d.curCell s = k)
      | none => false
    if r.mode = 4 then (if qty = 3 && cur then d.modPt (fun p => { p with r1 := s :: p.r1 }) else d)
    else if qty = 1 && r.cell = k && r.mode != 2 && (8 * t) % per == 0 then d.modPt (fun p => { p with r1 := s :: p.r1 })
    else if qty = 0 && r.cell = k && r.mode != 1 then d.modPt (fun p => { p with r2 := s :: p.r2 })
    else if qty = 6 && isLeg k && d.legEn (k - 48) then d.modPt (fun p => { p with busSum := p.busSum + v, busN := p.busN + 1 })
    else d
/-- A published Prism output that a MODE 4 run takes. -/
def ptPrism (d : Dev) (k : Nat) (v : Int) (stamp : Nat) : Dev :=
  let r := d.diag.pt
  if !r.running || r.t0.isNone || r.mode != 4 then d
  else
    let s : PtSample := { t := (stamp : Rat) / 16, v := v }
    let d := if d.fld 0x35 0x6C 7 4 = k then d.modPt (fun p => { p with r2 := s :: p.r2 }) else d
    if d.fld 0x35 0x6C 3 0 = k then d.modPt (fun p => { p with r3 := s :: p.r3 }) else d

end Dev
end Sys2Proof.Machine
end

