-- ==== Sys2Proof/Machine/Prism.lean ====
section
/-! DEFINITION. The Prism measurement chain (chapter 11): the modulator clock, CIC and FIR, stamps and publication,
responses and banks, start and stop, cross-fades, thresholds. -/

namespace Sys2Proof.Machine

/-- Taps and FIR decimation of the ROM responses (Table 11.3). -/
def romN (r : Nat) : Nat :=
  [64, 64, 128, 128, 192, 192, 256, 256, 384, 384, 384, 384, 96, 96, 32, 32].getD (r % 16) 0
def romRf (r : Nat) : Nat := [1, 1, 2, 2, 2, 2, 4, 4, 4, 4, 4, 4, 1, 1, 1, 1].getD (r % 16) 1
/-- A response: taps, FIR decimation, group delay in half CIC samples, coefficients. -/
structure Resp where
  n : Nat
  rf : Nat
  gd2 : Nat
  coef : List Int
/-- The figures of Table 11.3 for a response: passband and stopband edge in f_c, ripple and attenuation in dB. -/
def romPass (r : Nat) : Rat :=
  [1000, 500, 1000, 600, 1300, 800, 600, 400, 512, 256, 512, 26, 2000, 1500, 500, 250].getD (r % 16) 0 / 10000
def romStop (r : Nat) : Rat :=
  [250, 180, 200, 160, 230, 200, 125, 110, 125, 100, 120, 50, 350, 300, 300, 250].getD (r % 16) 0 / 1000
def romRipple (r : Nat) : Rat := [50, 50, 20, 20, 10, 10, 10, 10, 5, 5, 2, 10, 50, 50, 100, 100].getD (r % 16) 0 / 1000
def romAtten (r : Nat) : Rat := [80, 85, 90, 95, 96, 100, 100, 105, 110, 120, 110, 120, 75, 80, 60, 65].getD (r % 16) 0
/-- The squared gain of the whole chain, sinc³ decimator by R_c and FIR, at a frequency in f_c. -/
def chainGain2 (l : List Int) (rc : Nat) (x : Rat) : Rat :=
  let w := 2 * Config.piR * x
  let tap := fun (f : Rat → Rat) => sumR (l.zipIdx.map (fun p => (p.1 : Rat) / 8388608 * f (w * p.2)))
  let s := Config.sinR (Config.piR * x) / (rc * Config.sinR (Config.piR * x / rc))
  (tap Config.cosR * tap Config.cosR + tap Config.sinR * tap Config.sinR) * (s * s * s) * (s * s * s)
/-- The figures of Table 11.3 hold for the whole chain at every R_c (R279), asked at 64 frequencies of the passband and 64
of the stopband up to f_c / 2. DESIGN CHOICE [10]. -/
def romFigures (r : Nat) (l : List Int) : Bool :=
  [16, 32, 64, 128, 256, 512].all (fun rc => (List.range 64).all (fun j =>
    let g := chainGain2 l rc (romPass r * (j + 1 : Nat) / 64)
    decide (Config.powR 10 (-(romRipple r) / 10) ≤ g ∧ g ≤ Config.powR 10 (romRipple r / 10)) &&
      decide (chainGain2 l rc (romStop r + (1 / 2 - romStop r) * (j : Rat) / 63) ≤ Config.powR 10 (-(romAtten r) / 10))))
/-- A table with the properties R279 gives a ROM response: symmetric, in Q1.23, of unit gain at DC, with the figures of
Table 11.3. -/
def romOk (r : Nat) (l : List Int) : Bool :=
  l.length == romN r && l.reverse == l && l.foldl (· + ·) 0 == 8388608 &&
    l.all (fun x => decide (-8388608 ≤ x ∧ x ≤ 8388607)) && romFigures r l
/-- The table that stands where the opaque one has not those properties: symmetric and of unit gain alone [10]. -/
def romPair (n : Nat) : List Int := List.replicate (n / 2 - 1) 0 ++ [4194304, 4194304] ++ List.replicate (n / 2 - 1) 0
/-- The coefficients of a ROM response (R279): any table with its properties. -/
def romTab (r : Nat) : List Int := if romOk r (Config.romTable r) then Config.romTable r else romPair (romN r)
/-- The state code of a channel (Table 11.11). -/
def ChanState.code : ChanState → Nat
  | .stopped => 0
  | .starting => 0
  | .restarting => 3
  | .settling => 1
  | .running => 2
  | .waitClk => 3

/-- One bit through the integrators (R273). -/
def cicBit (s : BitVec 32 × BitVec 32 × BitVec 32) (b : Bool) : BitVec 32 × BitVec 32 × BitVec 32 :=
  let i1 := s.1 + (if b then 1 else -1)
  let i2 := s.2.1 + i1
  (i1, i2, s.2.2 + i2)
/-- The CIC result scaled to 24 bits, before saturation (R273): lg is log2 R_c. -/
def cicScale (lg : Nat) (y : Int) : Int :=
  if 3 * lg ≤ 23 then y * (2 ^ (23 - 3 * lg) : Nat) else (y + (2 ^ (3 * lg - 24) : Nat)) / (2 ^ (3 * lg - 23) : Nat)
/-- A FIR sum stored to 24 bits, before saturation (R274). -/
def firSum (h d : List Int) : Int := (((h.zip d).map (fun p => p.1 * p.2)).foldl (· + ·) 0 + 4194304) / 8388608

/-- One threshold at an output (R290): whether it is met and released decide the count; the result says whether it
asserted (1), released (2) or neither. -/
def thrStep (deb : Nat) (t : Thr) (met rel : Bool) (stamp : Nat) : Thr × Nat :=
  let c := if t.on then rel else met
  if !c then ({ t with cnt := 0 }, 0)
  else
    let first := if t.cnt = 0 then stamp else t.first
    if deb ≤ t.cnt + 1 then ({ on := !t.on, cnt := 0, first := first }, if t.on then 2 else 1)
    else ({ t with cnt := t.cnt + 1, first := first }, 0)

namespace Dev

/-- CLK_CFG.MODE and PERIOD (Table 11.9). -/
def clkMode (d : Dev) : Nat := d.fld 0x28 0x20 17 16
def clkPer (d : Dev) : Nat := d.fld 0x28 0x20 6 0
/-- A clock is there: generated, or acquired (R282). -/
def clkOk (d : Dev) : Bool := d.clkMode = 1 || (d.clkMode = 2 && d.prism.acq)
def bankOf (d : Dev) (b : Nat) : Bank := tget {} d.prism.bank b
/-- CH_CFG fields of a channel. -/
def chAux (d : Dev) (k : Nat) : Bool := d.flag 0x28 (0x104 + 0x20 * k) 20
def chLg (d : Dev) (k : Nat) : Nat := 4 + d.fld 0x28 (0x104 + 0x20 * k) 18 16
def chRc (d : Dev) (k : Nat) : Nat := 2 ^ d.chLg k
def chResp (d : Dev) (k : Nat) : Nat := d.fld 0x28 (0x104 + 0x20 * k) 3 0
def chDly (d : Dev) (k : Nat) : Nat := d.fld 0x28 (0x108 + 0x20 * k) 9 0
/-- A response of a channel's class by its number. -/
def respOf (d : Dev) (aux : Bool) (r : Nat) : Resp :=
  if aux then
    let b := d.bankOf r
    ⟨b.taps, b.rf, b.gd2, b.coef⟩
  else ⟨romN r, romRf r, romN r - 1, (List.range (romN r)).map (listGet (romTab r))⟩
/-- The level that the device drives on SDCLK0 at an instant: none where the pin is undriven or an input (R267 to R269,
Table 18.10). -/
def sdclk0 (d : Dev) (ns : Nat) : Option Bool :=
  if !d.boot.armed then none
  else if d.clkMode = 1 then some (decide (ns % d.clkPer < d.clkPer / 2))
  else if d.clkMode = 2 then none
  else some false
/-- The level driven on SDCLK1 (R267 to R270, R319): the trigger output's pulse where it holds the pin; the clock of
SDCLK0 where Prism holds it; low in MODE 0. -/
def sdclk1 (d : Dev) (ns : Nat) : Option Bool :=
  if !d.boot.armed then none
  else if d.domOn 7 && d.flag 0x2C 0x2C 1 then some d.cap.pulse.isSome
  else if d.clkMode = 0 || (d.clkMode = 1 && d.domOn 5 && d.flag 0x28 0x28 1) then d.sdclk0 ns
  else none
/-- The response in force of a channel: NOW while it runs, CH_CFG.RESP while it is stopped. -/
def respNow (d : Dev) (k : Nat) : Nat := if (d.chan k).st == .stopped then d.chResp k else (d.chan k).now
/-- Clocks between a channel's FIR outputs (R271). -/
def outClks (d : Dev) (k : Nat) : Nat := d.chRc k * max 1 (d.respOf (d.chAux k) (d.respNow k)).rf
/-- The output period of a channel in ns, with P_b of R278. -/
def outPer (d : Dev) (k : Nat) : Nat := d.outClks k * (if d.clkMode = 1 then d.clkPer else 40)
/-- The demand of a channel in MACs (R278). -/
def demand1 (d : Dev) (k : Nat) : Nat :=
  let t := d.outPer k
  (d.respOf (d.chAux k) (d.respNow k)).n * ((10240 + t - 1) / t)
def demand (d : Dev) : Nat :=
  sumN ((List.range 16).map (fun k =>
    if (d.chan k).st == .stopped then 0 else d.demand1 k * (if (d.chan k).fade.isSome then 2 else 1)))
/-- The engine's work in 10,240 ns. -/
def prismCap : Nat := 6553
/-- The group delay of a channel in half modulator clocks (R275). -/
def gdHalf (d : Dev) (k : Nat) : Nat := 3 * (d.chRc k - 1) + (d.respOf (d.chAux k) (d.respNow k)).gd2 * d.chRc k
/-- A channel that is not STOPPED holds a bank: in force, as fade target or as pending target (R280). -/
def bankUsed (d : Dev) (b k : Nat) : Bool :=
  let c := d.chan k
  c.st != .stopped && d.chAux k && (c.now == b || (match c.fade with
    | some f => f.dst == b
    | none => false) || (match c.pend with
    | some (_, t, _) => t == b
    | none => false))

/-- Outputs suppressed after a start (R282). -/
def settleN (d : Dev) (k : Nat) : Nat :=
  let r := d.respOf (d.chAux k) (d.respNow k)
  (r.n + 2 - r.rf + r.rf - 1) / max 1 r.rf
/-- The mean period as a command brings it. -/
def noteMean (d : Dev) (m : EdgeMean) : Dev := if d.clkMode = 2 then d.modPrism (fun p => { p with pbar := m }) else d
/-- The stamp of an output computed at a clock, in ticks (R275). -/
def outStamp (d : Dev) (k c ts : Nat) (m : EdgeMean) : Nat :=
  let half := 2 * d.chDly k + d.gdHalf k
  if d.clkMode = 1 then 16 * d.clkPer * c - 8 * d.clkPer * half
  else ((ts : Int) - Config.roundAt 20 ((half * m.span : Nat) / ((2 * m.n : Nat) : Rat))).toNat

/-- The true output period of a channel in ns. -/
def chPeriod (d : Dev) (k : Nat) : Rat :=
  d.outClks k * (if d.clkMode = 1 then (d.clkPer : Rat) else d.meanPer / 16)
/-- The times of RUNNING of a channel that leaves its state: a frame is queued at most W / 2 and a latency after its window
(R295, R297). -/
def runsOf (d : Dev) (now k : Nat) : List PRun :=
  let c := d.chan k
  let old := c.past.filter (fun r => decide (now ≤ r.to_ + 500000000))
  if c.st == .running then ⟨c.runAt, now, d.chPeriod k, !d.chAux k, c.pub⟩ :: old else old
/-- A channel loses its outputs, its fade and its pending swap (R283): every swap whose fade runs, or whose last output
waits to be published, completes DONE. -/
def chanQuiet (d : Dev) (now k : Nat) (st : ChanState) : Dev :=
  let c := d.chan k
  let due := c.wait.filterMap (·.done)
  let ends := due ++ (match c.fade with
    | some f => if due.contains f.slot then [] else [f.slot]
    | none => [])
  let d := d.each ends (fun d n => d.endCmd now n stDone)
  let d := match c.pend with
    | some (n, _, _) => d.endCmd now n stAborted
    | none => d
  let (f, d) := d.drawFree
  let past := d.runsOf now k
  d.updChan k (fun c => { c with
    past := past, st := st, c0 := none, fade := none, pend := none
    now := match c.fade with
      | some f => f.dst
      | none => c.now
    wait := [], valid := false, out := { val := 0, stamp := Config.freeNat f % 2 ^ 68 }
    pub := [], nPub := 0, nOut := 0, ta := {}, tb := {}, tr := {} })
/-- RUN clears (R283). -/
def chanStop (d : Dev) (now k : Nat) : Dev := if (d.chan k).st == .stopped then d else d.chanQuiet now k .stopped
/-- An accepted start, or a restart after WAIT_CLK: c0 is at least 1 µs away, and in INT mode the grid fixes it (R282). -/
def chanStart (d : Dev) (now k : Nat) : Dev :=
  let d := d.updChan k (fun c => { c with now := d.chResp k })
  let p := d.clkPer
  let step := d.outClks k
  let c0 := if d.clkMode = 1 then
      let c := (now + 1000 + p - 1) / p
      some (c + (((k : Int) - c) % (step : Int)).toNat)
    else none
  d.updChan k (fun c => { c with
    st := if c.st == .waitClk then .restarting else .starting, c0 := c0, start := now + 1000, sat := 0 })

/-- The clock is lost: every channel that is not STOPPED waits (R268, R283). -/
def chansWait (d : Dev) (now : Nat) : Dev :=
  d.each (List.range 16) (fun d k => if (d.chan k).st == .stopped || (d.chan k).st == .waitClk then d else d.chanQuiet now k .waitClk)
/-- The clock is there again: the waiting channels restart. -/
def chansResume (d : Dev) (now : Nat) : Dev :=
  d.each (List.range 16) (fun d k => if (d.chan k).st == .waitClk then d.chanStart now k else d)

/-- Counts a saturation of a channel. -/
def chanSat (d : Dev) (k : Nat) : Dev := (d.updChan k (fun c => { c with sat := sat1 8 c.sat })).raise 0x28 4
def active (d : Dev) (k : Nat) : Bool := d.domOn 5 && ((d.chan k).st == .settling || (d.chan k).st == .running)

/-- A clock may be the c0 of a channel's accepted start (R282). -/
def c0Ok (d : Dev) (now k c : Nat) : Bool :=
  let x := d.chan k
  d.domOn 5 && d.clkOk && (x.st == .starting || x.st == .restarting) && decide (x.start ≤ now) &&
    decide (((c : Int) - k) % (d.outClks k : Int) = 0) && (match x.c0 with
      | some c0 => c0 == c
      | none => true)
/-- CHANNEL_SETTLE_START: at c0 the CIC state is cleared, the channel enters SETTLING and finds the bits that wait in its
delay line (R272, R282). -/
def doSettle (d : Dev) (now k c : Nat) (line : List Bool) : Dev :=
  if d.c0Ok now k c && line.length == 1023 then
    d.updChan k (fun x => { x with
      st := .settling, c0 := some c, line := line, i1 := 0, i2 := 0, i3 := 0, p3 := 0, p1 := 0, p2 := 0, hist := [], nOut := 0
      wait := [], pub := [], nPub := 0 })
  else d
/-- A clock lies after c0 of the channel (R282): what completes at c0 itself or before is no output of the start. -/
def pastC0 (d : Dev) (k c : Nat) : Bool :=
  match (d.chan k).c0 with
  | some c0 => decide (c0 < c)
  | none => true
/-- The bits of the delay line after the bits bs at the pin, newest first (R272). -/
def lineBits (d : Dev) (k : Nat) (bs : List Bool) : List Bool := bs.reverse ++ (d.chan k).line
/-- CIC_OUTPUT: the bits at the pin enter the delay line, and those of d_k clocks earlier feed the CIC (R271 to R273,
R282). -/
def doCic (d : Dev) (k c : Nat) (bs : List Bool) : Dev :=
  if !d.active k || !d.pastC0 k c || bs.length ≠ d.chRc k || ((c : Int) - k) % (d.chRc k : Int) ≠ 0 then d
  else
    let x := d.chan k
    let line := d.lineBits k bs
    let (i1, i2, i3) := ((line.drop (d.chDly k)).take bs.length).reverse.foldl cicBit (x.i1, x.i2, x.i3)
    let c1 := i3 - x.p3
    let c2 := c1 - x.p1
    let y := c2 - x.p2
    let v := cicScale (d.chLg k) y.toInt
    let s := satI 24 v
    let d := d.updChan k (fun h => { h with
      line := line.take 1023, i1 := i1, i2 := i2, i3 := i3, p3 := i3, p1 := c1, p2 := c2, hist := s :: h.hist.take 383 })
    if s = v then d else d.chanSat k
/-- A FIR result of a response on a channel's history, saturated; a saturation is counted. -/
def firOne (d : Dev) (k r : Nat) : Int × Dev :=
  let v := firSum (d.respOf (d.chAux k) r).coef (d.chan k).hist
  let s := satI 24 v
  (s, if s = v then d else d.chanSat k)
/-- A fade that has computed its last output gives way, and a pending swap starts (R287). -/
def fadeTurn (d : Dev) (now k : Nat) : Dev :=
  let c := d.chan k
  let d := match c.fade with
    | some f => if f.len ≤ f.n then d.updChan k (fun x => { x with now := f.dst, fade := none }) else d
    | none => d
  match (d.chan k).fade, (d.chan k).pend with
  | none, some (n, t, len) =>
    let d := d.updChan k (fun x => { x with pend := none })
    if t = (d.chan k).now then d.endCmd now n stDone
    else d.updChan k (fun x => { x with fade := some { frm := x.now, dst := t, len := len, n := 0, slot := n } })
  | _, _ => d
/-- FIR_OUTPUT (R274, R275, R282, R286). -/
def doFir (d : Dev) (now k c ts : Nat) (m : EdgeMean) : Dev :=
  if !d.active k || !d.pastC0 k c || ((c : Int) - k) % (d.outClks k : Int) ≠ 0 then d
  else
    let d := (d.noteMean m).fadeTurn now k
    let stamp := d.outStamp k c ts m
    let settle := d.settleN k
    let (y, done, d) : Int × Option Nat × Dev := match (d.chan k).fade with
      | none =>
        let (y, d) := d.firOne k (d.chan k).now
        (y, none, d)
      | some f =>
        let n := f.n + 1
        let (y0, d) := d.firOne k f.frm
        let (y1, d) := d.firOne k f.dst
        let d := d.updChan k (fun x => { x with fade := some { f with n := n } })
        (y0 + rnd (((n : Int) * (y1 - y0) : Int) / (f.len : Rat)), if n = f.len then some f.slot else none, d)
    d.updChan k (fun x => { x with
      nOut := x.nOut + 1
      wait := if settle ≤ x.nOut then x.wait ++ [{ val := y, stamp := stamp, done := done }] else x.wait })

/-- A threshold's log entry, event and capture trigger (R290, R309). -/
def thrEvent (d : Dev) (now k which res : Nat) (y : Int) (stamp : Nat) : Dev :=
  if res = 0 then d
  else
    let e : LogEntry := {
      ts := stamp / 16, flags := stamp % 16 * 16 + 8, page := 0x28, bit := which + 1, detail := which, unit := k
      sub := if res = 1 then 1 else 0, arg := y }
    let d := d.logEntry e
    if res = 1 then (d.raise 0x28 (which + 1)).trigger now (if which = 2 then 3 else 2) k (stamp / 16) (stamp % 16) else d
/-- A level threshold at an output (R288). -/
def levelStep (d : Dev) (now k which : Nat) (y : Int) (stamp : Nat) : Dev :=
  let r := d.rd 0x28 (0x300 + 0x10 * k + 4 * which)
  let t := d.rd 0x28 (0x30C + 0x10 * k)
  let mode := bits r 15 14
  let thr := sx 16 (bits r 31 16) * 256
  let hy : Int := (bits r 13 0 : Nat) * 256
  if mode = 0 then d
  else
    let met := if mode = 1 then decide (thr ≤ y) else decide (y ≤ thr)
    let rel := if mode = 1 then decide (y < thr - hy) else decide (thr + hy < y)
    let st := if which = 0 then (d.chan k).ta else (d.chan k).tb
    let (st', res) := thrStep (if which = 0 then bits t 31 24 else bits t 23 16) st met rel stamp
    (d.updChan k (fun c => if which = 0 then { c with ta := st' } else { c with tb := st' })).thrEvent now k which res y
      (if res = 0 then 0 else st'.first)
/-- The rate-of-change threshold at an output (R289). -/
def rocStep (d : Dev) (now k : Nat) (y : Int) (stamp : Nat) : Dev :=
  let r := d.rd 0x28 (0x308 + 0x10 * k)
  let t := d.rd 0x28 (0x30C + 0x10 * k)
  let mode := bits r 15 14
  let win := bits t 7 0
  match (d.chan k).pub[win - 1]? with
  | none => d
  | some o =>
    if mode = 0 then d
    else
      let dy := y - o.val
      let v : Int := if mode = 1 then (dy.natAbs : Int) else if mode = 2 then dy else -dy
      let thr : Int := (bits r 31 16 : Nat) * 256
      let hy : Int := (bits r 13 0 : Nat) * 256
      let (st', res) := thrStep (bits t 15 8) (d.chan k).tr (decide (thr ≤ v)) (decide (v < thr - hy)) stamp
      (d.updChan k (fun c => { c with tr := st' })).thrEvent now k 2 res y (if res = 0 then 0 else st'.first)
/-- OUTPUT_PUBLISH (R277, R282, R285, R288 to R290). -/
def doPublish (d : Dev) (now k : Nat) : Dev :=
  if !d.active k then d
  else
    match (d.chan k).wait with
    | [] => d
    | o :: r =>
      let d := if (d.chan k).st == .settling then (d.updChan k (fun c => { c with st := .running, runAt := now })).raise 0x28 0 else d
      let d := ((d.levelStep now k 0 o.val o.stamp).levelStep now k 1 o.val o.stamp).rocStep now k o.val o.stamp
      let d := d.updChan k (fun c => { c with
        wait := r, out := o, valid := true, pub := o :: c.pub.take 524287, nPub := c.nPub + 1 })
      let d := match o.done with
        | none => d
        | some n =>
          let d := d.endCmd now n stDone
          if ((d.chan k).fade.map (fun (f : Fade) => f.slot)) == some n then d.fadeTurn now k else d
      d.ptPrism k o.val o.stamp

/-- Two responses of a class are compatible (R281). -/
def compat (d : Dev) (aux : Bool) (a b : Nat) : Bool :=
  let x := d.respOf aux a
  let y := d.respOf aux b
  x.n == y.n && x.rf == y.rf && x.gd2 == y.gd2
/-- CMD_RESP_SWAP executes (R285, R287). -/
def doRespSwap (d : Dev) (now : Nat) : Dev :=
  match d.nextCmd 0x12 with
  | none => d
  | some (n, s) =>
    let d := d.beginCmd n
    let k := argLE s 0 1
    let t := argLE s 1 1
    let len := argLE s 2 2
    let aux := d.chAux k
    if 15 < k then d.endCmd now n stBadArg 8
    else if (if aux then decide (7 < t) || !(d.bankOf t).loaded else decide (15 < t)) || !d.compat aux (d.respNow k) t then
      d.endCmd now n stBadArg 9
    else if len = 0 || 4096 < len then d.endCmd now n stBadArg 10
    else if !d.domOn 5 || (d.chan k).st != .running then d.endCmd now n stRefState
    else
      match (d.chan k).fade with
      | some _ =>
        let d := match (d.chan k).pend with
          | some (o, _, _) => d.endCmd now o stSuper
          | none => d
        d.updChan k (fun c => { c with pend := some (n, t, len) })
      | none =>
        if t = (d.chan k).now then d.endCmd now n stDone
        else if prismCap < d.demand + d.demand1 k then d.endCmd now n stBusy
        else d.updChan k (fun c => { c with fade := some { frm := c.now, dst := t, len := len, n := 0, slot := n } })

/-- CMD_BANK_LOAD executes (R280). -/
def doBankLoad (d : Dev) (now : Nat) : Dev :=
  match d.nextCmd 0x11 with
  | none => d
  | some (n, s) =>
    let d := d.beginCmd n
    let b := argLE s 0 1
    let taps := argLE s 2 2
    let rf := argLE s 4 1
    let gd2 := argLE s 6 2
    let src := argLE s 8 1
    let addr := argLE s 16 8
    if 7 < b then d.endCmd now n stBadArg 8
    else if taps = 0 || 384 < taps then d.endCmd now n stBadArg 10
    else if !(rf == 1 || rf == 2 || rf == 4) then d.endCmd now n stBadArg 12
    else if 2 * (taps - 1) < gd2 then d.endCmd now n stBadArg 14
    else if 1 < src then d.endCmd now n stBadArg 16
    else if addr % 4 ≠ 0 then d.endCmd now n stBadArg 24
    else if src = 1 && decide ((if d.partEn 4 then d.partBytes 4 else 0) < addr + 4 * taps) then d.endCmd now n stBadLength
    else if !d.domOn 5 || (src = 1 && !d.domOn 7) || (List.range 16).any (d.bankUsed b) then d.endCmd now n stRefState
    else if (tget none d.prism.loading b).isSome || (src = 1 && !d.cap.storeWr.isEmpty) then d.endCmd now n stBusy
    else if src = 0 && !d.bus.busMaster then d.endCmd now n stHwFault
    else d.modPrism (fun p => { p with loading := tset none p.loading b (some (n, taps, rf, gd2)) })
/-- BANK_LOAD_END (R280): a word that breaks the sign rule makes the data bad. -/
def doBankLoadEnd (d : Dev) (now b : Nat) (x : Xfer) : Dev :=
  match tget none d.prism.loading b with
  | none => d
  | some (n, taps, rf, gd2) =>
    let sl := (d.slot n).getD {}
    let fromCap := argLE sl 8 1 == 1
    let done := (d.modPrism (fun p => { p with loading := tset none p.loading b none })).corrected fromCap x
    match x with
    | .pcieErr m _ => done.endCmd now n stHwFault m
    | .eccErr m _ => (done.modCap (fun c => { c with eccU := sat1 16 c.eccU })).raise 0x2C 5 |>.endCmd now n stHwFault m
    | .ok ws' _ =>
      let ws := if fromCap then
          (List.range taps).map (fun i => (List.range 4).foldr
            (fun j a => a * 256 + (tget 0 d.cap.store (argLE sl 16 8 + 4 * i + j)).toNat) 0)
        else ws'
      if ws.length ≠ taps then d
      else if ws.any (fun w => decide (w / 2 ^ 23 ≠ 0 ∧ w / 2 ^ 23 ≠ 2 ^ 9 - 1)) then done.endCmd now n stBadArg
      else
        let bk : Bank := { loaded := true, taps := taps, rf := rf, gd2 := gd2, coef := ws.map (sx 24) }
        (done.modPrism (fun p => { p with bank := tset {} p.bank b bk })).endCmd now n stDone

end Dev

/-- CHANNEL_SETTLE_START (R272, R282). -/
def execChannelSettleStart (start : ChannelStart) (s : State) : Host.Outcome State Fault Refusal :=
  onDev s (fun t d => d.doSettle t start.k start.c start.line)
/-- CIC_OUTPUT (R273). -/
def execCicOutput (k c : Nat) (bs : List Bool) (s : State) : Host.Outcome State Fault Refusal :=
  onDev s (fun _ d => d.doCic k c bs)
/-- FIR_OUTPUT (R274 to R276, R286, R287). -/
def execFirOutput (k c ts : Nat) (pbar : EdgeMean) (s : State) : Host.Outcome State Fault Refusal :=
  onDev s (fun t d => d.doFir t k c ts pbar)
/-- OUTPUT_PUBLISH (R277, R282, R288 to R290). -/
def execOutputPublish (k : Nat) (s : State) : Host.Outcome State Fault Refusal := onDev s (fun t d => d.doPublish t k)
/-- CMD_RESP_SWAP (R285 to R287). -/
def execCmdRespSwap (s : State) : Host.Outcome State Fault Refusal := onDev s (fun t d => d.doRespSwap t)
/-- CMD_BANK_LOAD (R280). -/
def execCmdBankLoad (s : State) : Host.Outcome State Fault Refusal := onDev s (fun t d => d.doBankLoad t)
/-- BANK_LOAD_END (R280). -/
def execBankLoadEnd (b : Nat) (x : Xfer) (s : State) : Host.Outcome State Fault Refusal :=
  onDev s (fun t d => d.doBankLoadEnd t b x)

end Sys2Proof.Machine
end

