-- ==== Sys2Proof/Machine/Lattice.lean ====
section
/-! DEFINITION. The Lattice engine (chapters 07 and 08): contexts and their configuration, admission, the latching of
inputs, runs, the commit of a context, state requests, coefficients, decimation. -/

namespace Sys2Proof.Machine

/-- The code of a context state (Table 7.13). -/
def CtxState.code : CtxState → Nat
  | .idle => 0
  | .opened => 1
  | .closing => 2
  | .closed => 3
  | .fault => 4

namespace Dev

def allCtx : List Nat := (List.range 63).map (· + 1)
def cxExpert (d : Dev) (c : Nat) : Bool := d.ctxCfg c 15 15 == 1
def cxTpl (d : Dev) (c : Nat) : Nat := if d.cxExpert c then 0 else d.ctxCfg c 13 8
def cxNotch (d : Dev) (c : Nat) : Bool := !d.cxExpert c && d.ctxCfg c 7 7 == 1
def cxHarm (d : Dev) (c : Nat) : Nat := if d.cxExpert c then 0 else d.ctxCfg c 6 4
def cxClass (d : Dev) (c : Nat) : Nat := d.ctxCfg c 31 30
/-- An expert register of a context (Table 7.11). -/
def cxX (d : Dev) (c off : Nat) : Nat := d.rd (ctxPage c) (off + 0x10 * ctxIdx c)
/-- DEC_OK (R193). -/
def cxDec (d : Dev) (c : Nat) : Bool :=
  if d.cxExpert c then bit (d.cxX c 0x404) 0 else (tplCost (d.cxTpl c) (d.cxHarm c)).2.2 && !d.cxNotch c
/-- The law is closed-loop (R207). -/
def cxClosed (d : Dev) (c : Nat) : Bool := d.cxExpert c || tplClosed (d.cxTpl c)
/-- N_k of a class, under given factors; class 0 is never decimated (R192). -/
def nOf (dec : List Nat) (k : Nat) : Nat := if k = 0 then 1 else 2 ^ dec.getD (k - 1) 0
/-- STEP of a context (Table 7.6). -/
def cxStep (d : Dev) (c : Nat) : Nat := if d.cxDec c then nOf d.lat.dec (d.cxClass c) else 1
/-- RATE_DIV × N_k (R189). -/
def cxDiv (d : Dev) (c : Nat) : Nat := 2 ^ d.ctxCfg c 26 24 * d.cxStep c
/-- A state in which a context runs (Table 8.1). -/
def runs (st : CtxState) : Bool := st == .opened || st == .closing || st == .closed
/-- A context is due in period m (R189). -/
def dueAt (d : Dev) (c m : Nat) : Bool := (d.cx c).en && runs (d.cx c).st && (m + c) % d.cxDiv c == 0
/-- Lattice runs periods (R180). -/
def latOn (d : Dev) : Bool := d.domOn 2 && d.readyRun
/-- The period whose run is under way: the one after the last commit; before the first, that of the last sample
instant. DEDUCED [21]. -/
def runM (d : Dev) (now : Nat) : Nat :=
  if !d.lat.ran then now / d.lat.tc
  else match d.lat.tcNext with
    | some (v, t) => if t ≤ now then now / v else d.lat.pidx + 1
    | none => d.lat.pidx + 1

/-- The selector of input i (R175). -/
def selOf (d : Dev) (c i : Nat) : Nat :=
  let r := d.rd (ctxPage c) (0x48 + 0x20 * ctxIdx c + 4 * (i / 2))
  if i % 2 = 1 then bits r 31 16 else bits r 15 0
/-- The producer of a chained input (Table 7.1). -/
def chainOf (s : Nat) : Option Nat := if bits s 15 12 = 6 || bits s 15 12 = 7 then some (bits s 11 6) else none
def producers (d : Dev) (c : Nat) : List Nat := (List.range 8).filterMap (fun i => chainOf (d.selOf c i))
/-- The link and quantity a sample selector names for an element (Table 7.1). -/
def sampleSel (d : Dev) (c e s : Nat) : Option (Nat × Nat) :=
  let vec := decide (1 < d.nElem c)
  if bits s 15 12 = 1 then some (bits s 11 6 + (if vec then e else 0), bits s 2 0)
  else if bits s 15 12 = 2 then
    let t := bits s 9 8
    if d.strCount t ≤ (if vec then e else 0) then none
    else some (if vec then d.strFirst t + e else d.curCell t, bits s 2 0)
  else none
/-- A loop-critical quantity of a link (R69, R182). -/
def critical (d : Dev) (k qty : Nat) : Bool :=
  if isLeg k then qty == 4
  else
    let cur := match d.strCfgOf k with
      | some s => decide (d.curCell s = k)
      | none => false
    if cur then qty == 3 else qty == 0
/-- A fresh input: a loop-critical sample of a class 0 context (R182). -/
def freshSel (d : Dev) (c e s : Nat) : Bool :=
  d.cxClass c == 0 && (match d.sampleSel c e s with
    | some (k, q) => d.critical k q
    | none => false)
/-- A fresh context (R182), looking at most n producers up the chain. -/
def freshN (d : Dev) : Nat → Nat → Bool
  | 0, _ => false
  | n + 1, c =>
    d.cxClass c == 0 &&
      ((List.range (d.nElem c)).any (fun e => (List.range 8).any (fun i => d.freshSel c e (d.selOf c i))) ||
        (d.producers c).any (fun p => freshN d n p))
def isFresh (d : Dev) (c : Nat) : Bool := d.freshN 4 c

/-- The words of the routine at an address, before its END; none where R203 refuses it. -/
def routine (d : Dev) (entry : Nat) : Option (List Nat) :=
  let ws := (List.range (min 4096 (16384 - entry))).map (fun i => (tget 0 d.lat.code (entry + i)).toNat)
  let body := ws.takeWhile (fun w => xOp w != 0x3F)
  match ws[body.length]? with
  | some e => if insOk e && body.all insOk then some body else none
  | none => none
/-- OPS and CP of a context (R196, R204). -/
def costOf (d : Dev) (c : Nat) : Nat × Nat :=
  if d.cxExpert c then
    match d.routine (d.cxX c 0x400) with
    | some l => xCost l
    | none => (0, 0)
  else
    let (o, p, _) := tplCost (d.cxTpl c) (d.cxHarm c)
    if d.cxNotch c then (o + 10, p + 16) else (o, p)
/-- An address of the microcode memory lies in the routine of an enabled expert context (R200). -/
def codeHeld (d : Dev) (a : Nat) : Bool :=
  allCtx.any (fun c => (d.cx c).en && d.cxExpert c &&
    (match d.routine (d.cxX c 0x400) with
      | some l => decide (d.cxX c 0x400 ≤ a ∧ a ≤ d.cxX c 0x400 + l.length)
      | none => false))

/-- The contexts that admission counts (R191, R197): enabled ones, ones released at the next commit, one on trial. -/
def counted (d : Dev) (extra : Option Nat) : List Nat :=
  allCtx.filter (fun c => (d.cx c).en || (d.cx c).adm || extra == some c)
/-- The path of a context: CP along the longest chain of producers that ends at it (R196). -/
def pathN (d : Dev) : Nat → Nat → Nat
  | 0, _ => 0
  | n + 1, c => (d.costOf c).2 + ((d.producers c).map (fun p => pathN d n p)).foldl max 0
/-- How many contexts the longest chain that ends at a context has; 5 stands for more than 4. -/
def chainN (d : Dev) (on : Nat → Bool) : Nat → Nat → Nat
  | 0, _ => 0
  | n + 1, c => 1 + ((d.producers c).map (fun p => if on p then chainN d on n p else 1)).foldl max 0
/-- The terms of admission: fresh demand and F, total demand and Wc, fixed demand and CAP, and whether all three
conditions hold (R197). -/
structure Adm where
  f : Nat
  fw : Int
  a : Nat
  cw : Int
  x : Nat
  cap : Nat
  ok : Bool
def admission (d : Dev) (tc ll cap arr : Nat) (extra : Option Nat) : Adm :=
  let l := d.counted extra
  let w := fun (c : Nat) => (d.costOf c).1 * d.nElem c
  let fr := l.filter d.isFresh
  let fx := l.filter (fun c => d.cxClass c == 0 || !d.cxDec c)
  let sum := fun (q : List Nat) => (sumN (q.map w) + 7) / 8
  let top := fun (q : List Nat) => (q.map (d.pathN 4)).foldl max 0
  let f := sum fr + top fr
  let a := sum l + top l
  let fw : Int := (4 * ((ll : Int) - 1120 - arr)) / 5
  let cw : Int := (4 * ((tc : Int) + ll - 1120 - max ((ll : Int) - 900) ((arr : Int) + 1280))) / 5
  let cp := 4 * tc * cap / 320
  { f := f, fw := fw, a := a, cw := cw, x := sum fx, cap := cp
    ok := (fr.isEmpty || decide ((f : Int) ≤ fw)) && (l.isEmpty || decide ((a : Int) ≤ cw)) &&
      (fx.isEmpty || decide (sum fx ≤ cp)) }
/-- PERIOD, LOOP_LAT and ADMIT_CAP as accepted. -/
def regTc (d : Dev) : Nat := d.fld 0x20 0x20 15 0
def regLat (d : Dev) : Nat := d.fld 0x20 0x24 15 0
def regCap (d : Dev) : Nat := d.fld 0x20 0x28 6 0
def admNow (d : Dev) (extra : Option Nat) : Adm := d.admission d.regTc d.regLat d.regCap d.lat.arr extra
/-- What enabled contexts chain from a context, or read element by element, it serves: class 0 for a chain, and enough
elements (R185, R198). -/
def servesOk (d : Dev) (c : Nat) : Bool :=
  (allCtx.filter (fun x => x != c && (d.cx x).en)).all (fun x => (List.range 8).all (fun i =>
    let s := d.selOf x i
    let t := bits s 15 12
    bits s 11 6 != c || ((!(t == 6 || t == 7) || d.cxClass c == 0) && (!(t == 5 || t == 7) || decide (d.nElem x ≤ d.nElem c)))))
/-- A context's configuration is valid for EN (R185, R198, R203). -/
def ctxValid (d : Dev) (c : Nat) : Bool :=
  let on := fun (p : Nat) => (d.cx p).en || p == c
  (d.cxExpert c || d.cxTpl c != 0) &&
  (!d.cxExpert c || (d.routine (d.cxX c 0x400)).isSome) &&
  (List.range 8).all (fun i =>
    let s := d.selOf c i
    let t := bits s 15 12
    (!(t == 5 || t == 7) || decide (d.nElem c ≤ d.nElem (bits s 11 6))) &&
    (!(t == 6 || t == 7) || (d.cxClass c == 0 && d.cxClass (bits s 11 6) == 0))) &&
  d.servesOk c && (allCtx.filter on).all (fun x => decide (d.chainN on 5 x ≤ 4))
/-- EN may be set (R198). -/
def enMay (d : Dev) (c : Nat) : Bool := d.ctxValid c && (d.admNow (some c)).ok
/-- EN sets: ST words clear, OPS and CP are computed (R173, R204). A fault policy still due stays due (R190). -/
def ctxEnable (d : Dev) (c : Nat) : Dev :=
  let (o, p) := d.costOf c
  d.updCtx c (fun x => { x with
    en := true, st := .idle, ops := o, cp := p
    el := x.el.foldl (fun m e => tset {} m e.1 { tgt := e.2.tgt, out := e.2.out, inpLast := e.2.inpLast }) [] })
/-- EN clears: the state is IDLE, the pending request is discarded; admission and the committed outputs stand until the
next commit (R190, R191, R208, R209, R213). -/
def ctxDisable (d : Dev) (c : Nat) : Dev :=
  d.updCtx c (fun x => { x with
    en := false, st := .idle, req := 0, adm := true
    el := x.el.foldl (fun m e => tset {} m e.1 { tgt := e.2.tgt, out := e.2.out, inpLast := e.2.inpLast }) [] })
/-- The commit after EN cleared: admission is released, OVR_CONSEC is reset and the outputs read 0 (R191, R213). -/
def ctxRelease (d : Dev) (c : Nat) : Dev :=
  if (d.cx c).adm then
    d.updCtx c (fun x => { x with
      adm := false, ovr := 0, zero := false
      el := x.el.foldl (fun m e => tset {} m e.1 { e.2 with out := [0, 0, 0, 0] }) [] })
  else d

/-- A recomputes from the delays of the links in control; a broken admission raises ADM_LOST (R183, R199). -/
def arrUpdate (d : Dev) : Dev :=
  let l := d.strings.flatMap d.strCells ++ d.legs
  let up := maxI 0 (l.map d.upDelay)
  let a := (((1540 * 256 + max up 0) + 2559) / 2560 * 10).toNat
  if a = d.lat.arr then d
  else
    let d := d.modLat (fun x => { x with arr := a })
    if (d.admNow none).ok then d else d.raise 0x20 3

/-- IPRI_DIV, VSEC_DIV or 1: how often a quantity is sampled (R101). -/
def divOf (d : Dev) (k qty : Nat) : Nat :=
  let r := d.rd (facetPage k) 0x24
  if isLeg k then (if qty = 5 then bits r 12 8 else if qty = 6 then bits r 4 0 else 1)
  else if qty = 1 then bits r 12 8 else if qty = 2 then bits r 4 0 else 1
/-- The sample an input is latched with for period m, and whether it is stale (R182, R184). -/
def sampleFor (d : Dev) (k qty m : Nat) (fresh : Bool) : Int × Bool :=
  let at? := fun (t : Tbl (Int × Nat)) => (t.find? (fun p => p.1 == qty)).map (·.2)
  let s := at? (d.lk k).samp
  let want := if fresh then m else (m - 1) / max 1 (d.divOf k qty) * max 1 (d.divOf k qty)
  let cand := if fresh then s
    else match s with
      | some (v, i) => if i < m then some (v, i) else
          (match at? (d.lk k).sampPrev with
            | some p => some p
            | none => some (v, i))
      | none => none
  match cand with
  | some (v, i) => (cvtSample v, i != want)
  | none => (0, true)
/-- Committed or shadow output of a context's element (R188). -/
def shadowOut (d : Dev) (c e p : Nat) : Int := listGet (d.elem c e).sout p
/-- The value latched for input i of an element, and whether it is stale; none while a chained producer that is due has
not completed (Table 7.2, R185). DEDUCED: a producer that is not due gives the outputs it holds (R189) [50]. -/
def latchVal (d : Dev) (c e i m : Nat) : Option (Int × Bool) :=
  let s := d.selOf c i
  let t := bits s 15 12
  if t = 1 || t = 2 then
    match d.sampleSel c e s with
    | some (k, q) => some (if 51 < k then (0, true) else d.sampleFor k q m (d.freshSel c e s))
    | none => some (0, false)
  else if t = 3 then some (cvtPrism (d.chan (bits s 3 0)).out.val, false)
  else if t = 4 then some (d.ctxOut (bits s 11 6) (bits s 3 0) (bits s 5 4), false)
  else if t = 5 then some (d.ctxOut (bits s 11 6) e (bits s 5 4), false)
  else if t = 6 || t = 7 then
    let p := bits s 11 6
    let pe := if t = 6 then bits s 3 0 else e
    if d.nElem p ≤ pe then some (0, false)
    else if !d.dueAt p m then some (d.ctxOut p pe (bits s 5 4), false)
    else if (d.elem p pe).done then some (d.shadowOut p pe (bits s 5 4), false)
    else none
  else if t = 8 then
    let x := bits s 11 0
    if x = 0 then
      some ((sumN ((d.strings.filter (fun q => d.vCtx q == c)).map (tget 0 d.lat.fbCount)) : Nat), false)
    else if x = 1 then
      let hit := d.strings.any (fun q => d.dabCtx q == c && decide (e < d.strCount q) && tget false d.lat.fbPh (d.strFirst q + e))
      some (if hit then 0x7FFF else 0, false)
    else
      let hit := (List.range 4).any (fun n => d.legCtx n == c && d.legElem n == e && tget false d.lat.fbLeg n)
      some (if hit then 0x7FFF else 0, false)
  else some (0, false)
/-- INPUT_LATCH (R184). -/
def doLatch (d : Dev) (now c e i : Nat) : Dev :=
  let m := d.runM now
  let el := d.elem c e
  if !d.latOn || c = 0 || 63 < c || d.nElem c ≤ e || 8 ≤ i || !d.dueAt c m || el.done || (tget none el.inp i).isSome ||
      bits (d.selOf c i) 15 12 == 0 then d
  else
    match d.latchVal c e i m with
    | none => d
    | some (v, stale) =>
      let d := d.updElem c e (fun x => { x with inp := tset none x.inp i (some v) })
      if stale then (d.updCtx c (fun x => { x with stale := sat1 8 x.stale })).raise 0x20 2 else d

/-- Every input of an element that has a source is latched (R187). -/
def latched (d : Dev) (c e : Nat) : Bool :=
  (List.range 8).all (fun i => bits (d.selOf c i) 15 12 == 0 || (tget none (d.elem c e).inp i).isSome)
/-- The ST words that a closed-loop template keeps in OPEN: integrator, resonator and notch states are 0 (R211). -/
def heldSt (st : Tbl Int) : Tbl Int := st.filter (fun p => !(p.1 == 0 || decide (4 ≤ p.1)))
/-- What a run starts from. -/
def runIn (d : Dev) (c e : Nat) : RunIn :=
  let x := d.cx c
  let el := d.elem c e
  let held := x.st == .opened && d.cxClosed c && !d.cxExpert c
  { t := d.cxTpl c, h := min 6 (d.cxHarm c), notch := d.cxNotch c, k := x.k
    st := if held then heldSt el.st else el.st
    inp := fun i => (tget none el.inp i).getD 0
    sp := q15 el.y, step := d.cxStep c, out0 := listGet el.out 0, clamp := el.clamp
    preset := if el.first && !d.cxExpert c then some (q15 el.hold) else none }
/-- An OPEN closed-loop context commits its hold; its integrator, resonator and notch states stay 0 (R211). -/
def holdOut (d : Dev) (c e : Nat) (r : RunOut) : RunOut :=
  let h := q15 (d.elem c e).hold
  let k := (d.cx c).k
  let lo := tget 0 k 4
  let hi := tget 0 k 3
  let cl : Int := if hi < h then 1 else if h < lo then -1 else 0
  if d.cxExpert c then { r with out := r.out.set 0 (clampI lo hi h), clamp := cl }
  else
    { out := [clampI lo hi h, 0, if d.cxTpl c = 3 then 0 else listGet r.out 2, if cl = 0 then 0 else 0x7FFF]
      st := heldSt r.st, clamp := cl }
/-- The routine of a context over one element: its result, and whether it saturated. -/
def runElem (d : Dev) (c e : Nat) : RunOut × Bool :=
  let r := d.runIn c e
  let (o, s) := if d.cxExpert c then xRun r e (d.elem c e).out ((d.routine (d.cxX c 0x400)).getD []) false else tplRun r false
  (if (d.cx c).st == .opened && d.cxClosed c then d.holdOut c e o else o, s)
/-- INSTANCE_END: the instance writes its shadow copies (R188). -/
def doInstance (d : Dev) (now c e : Nat) : Dev :=
  if !d.latOn || c = 0 || 63 < c || d.nElem c ≤ e || !d.dueAt c (d.runM now) || (d.elem c e).done || !d.latched c e then d
  else
    let (o, s) := d.runElem c e
    (d.updElem c e (fun x => { x with done := true, sout := o.out, sst := o.st, sclamp := o.clamp })).updCtx c
      (fun x => { x with ssat := x.ssat || s })

/-- A running CMD_CTX_LOAD of a context ends. -/
def loadEnd (d : Dev) (now c status : Nat) (result : Nat := 0) : Dev :=
  match (d.cx c).load with
  | some (n, _) => (d.endCmd now n status result).updCtx c (fun x => { x with load := none, loadVals := [] })
  | none => d
/-- The shadow copies of a run are gone. -/
def clearRun (d : Dev) (c : Nat) (commit : Bool) : Dev :=
  d.updCtx c (fun x => { x with
    ssat := false
    el := x.el.map (fun p =>
      let e := p.2
      (p.1, { e with
        done := false, inp := [], sst := [], sout := [0, 0, 0, 0], sclamp := 0
        inpLast := if e.done then e.inp else e.inpLast
        out := if commit && e.done then e.sout else e.out
        st := if commit && e.done then e.sst else e.st
        clamp := if commit && e.done then e.sclamp else e.clamp
        first := if commit && e.done then false else e.first })) })
/-- A context misses its commit; the third in a row is a FAULT (R188, R190). -/
def overrun (d : Dev) (now c : Nat) : Dev :=
  let d := (d.updCtx c (fun x => { x with ovr := min 3 (x.ovr + 1), ovrTotal := sat1 16 x.ovrTotal })).modLat
    (fun l => { l with ovrMap := setBit l.ovrMap c true })
  let d := (d.raise 0x20 0).clearRun c false
  if (d.cx c).ovr < 3 then d
  else
    let d := d.updCtx c (fun x => { x with st := .fault, polDue := true })
    ((d.raiseLog now 0x20 1 c).raise (ctxPage c) (ctxIdx c)).loadEnd now c stAborted
/-- Step 1 of a commit: a due context commits, or counts an overrun (R188, R210). -/
def commitRun (now m : Nat) (d : Dev) (c : Nat) : Dev :=
  if !d.dueAt c m then d
  else if (List.range (d.nElem c)).all (fun e => (d.elem c e).done) then
    (d.updCtx c (fun x => { x with ovr := 0, sat := x.ssat })).clearRun c true
  else d.overrun now c
/-- A due context misses its commit: an instance has not reached END, or a producer of its chain misses (R185, R188). -/
def missesN (d : Dev) (m : Nat) : Nat → Nat → Bool
  | 0, _ => false
  | n + 1, c => d.dueAt c m && (!(List.range (d.nElem c)).all (fun e => (d.elem c e).done) || (d.producers c).any (missesN d m n))
/-- Step 1 of a commit for every context: the misses are those of the period that ends (R185, R188, R210). -/
def commitAll (d : Dev) (now m : Nat) : Dev :=
  let miss := allCtx.filter (d.missesN m 5)
  d.each allCtx (fun d c => if miss.contains c then d.overrun now c else commitRun now m d c)
/-- FAULT_POL acts, from the commit after the fault, whatever the context has become; its outputs read 0 while it is in
FAULT (R190, R213, Table 7.3). -/
def faultPol (now : Nat) (d : Dev) (c : Nat) : Dev :=
  if !(d.cx c).polDue then d
  else
    let pol := d.ctxCfg c 29 28
    let d := d.updCtx c (fun x => { x with polDue := false, zero := pol != 1 && x.st == .fault })
    if pol != 2 then d
    else
      let strs := d.strings.filter (fun s => d.vCtx s == c || d.dabCtx s == c)
      let lgs := (List.range 4).filter (fun n => d.legEn n && d.legCtx n == c)
      let units := strs.flatMap d.strCells ++ lgs.map (48 + ·)
      if units.isEmpty then d
      else
        let d := (d.latch now 2).each units (fun d u => d.faultPlace now u .off)
        d.each strs (fun d s => d.svcCheck now s)

/-- The coefficients a set of writes would leave. -/
def withWrites (k : Tbl Int) (w : List (Nat × Int)) : Tbl Int := w.foldl (fun m p => tset 0 m p.1 p.2) k
/-- The coefficient set is valid for the context's routine (R216). -/
def coefValid (d : Dev) (c : Nat) (k : Tbl Int) : Bool := d.cxExpert c || coefOk (d.cxTpl c) (min 6 (d.cxHarm c)) (d.cxNotch c) k
/-- A state request is allowed (Table 8.2). Codes: 1 OPEN, 2 CLOSE, 3 IDLE. -/
def reqAllowed (d : Dev) (c req : Nat) (en : Bool) : Bool :=
  let x := d.cx c
  match x.st with
  | .idle => req == 1 && en && d.coefValid c (withWrites x.k x.staged) && x.load.isNone
  | .opened =>
    req == 3 || (req == 2 && d.cxClosed c && d.coefValid c x.k && x.load.isNone && x.staged.isEmpty)
  | .closing => req == 1 || req == 3
  | .closed => req == 1 || req == 3
  | .fault => req == 3
/-- The state that a request leads to, with what its entry does (R211 to R214, R229). -/
def takeReq (d : Dev) (c req : Nat) : Dev :=
  let x := d.cx c
  let els := List.range (d.nElem c)
  if req = 3 then
    (d.updCtx c (fun x => { x with st := .idle, ovr := 0, zero := false })).each els (fun d e =>
      d.updElem c e (fun q => { tgt := q.tgt, st := q.st, inpLast := q.inpLast }))
  else if req = 1 then
    let d := d.updCtx c (fun x => { x with st := .opened })
    d.each els (fun d e => d.updElem c e (fun q =>
      if x.st == .idle then { tgt := q.tgt, inpLast := q.inpLast }
      else { q with
        hold := listGet q.out 0 * 65536, track := false, first := false
        st := if d.cxExpert c then q.st else heldSt q.st }))
  else
    let d := d.updCtx c (fun x => { x with st := .closing })
    let mi := if d.cxExpert c then bits x.splSrc 18 16 else 0
    d.each els (fun d e => d.updElem c e (fun q =>
      let inp := fun (i : Nat) => (tget none q.inpLast i).getD 0
      { q with
        st := if d.cxExpert c then q.st else heldSt q.st
        y := (if d.cxExpert c then inp mi else measOf (d.cxTpl c) inp) * 65536
        v := 0, first := true }))
/-- Step 2: a pending request takes effect, or is discarded and counted (R210). -/
def commitReq (d : Dev) (c : Nat) : Dev :=
  let x := d.cx c
  if x.req = 0 then d
  else
    let d := d.updCtx c (fun x => { x with req := 0 })
    if d.reqAllowed c x.req x.en then d.takeReq c x.req else d.discardCount
/-- Step 3: staged coefficients, and a load whose data is read (R210, R216, R217). -/
def commitCoef (now : Nat) (d : Dev) (c : Nat) : Dev :=
  let x := d.cx c
  let free := x.st == .idle || x.st == .opened
  let d := if x.staged.isEmpty then d
    else
      let k := withWrites x.k x.staged
      let d := d.updCtx c (fun x => { x with staged := [] })
      if free && (x.st == .idle || d.coefValid c k) then d.updCtx c (fun x => { x with k := k })
      else x.staged.foldl (fun d _ => d.discardCount) d
  match x.load with
  | some (_, true) =>
    let k := withWrites (d.cx c).k x.loadVals
    if !free then d.loadEnd now c stAborted
    else if x.st == .opened && !d.coefValid c k then d.loadEnd now c stBadArg
    else (d.updCtx c (fun x => { x with k := k })).loadEnd now c stDone
  | _ => d

/-- CMD_CTX_LOAD executes (R217). -/
def doCtxLoad (d : Dev) (now : Nat) : Dev :=
  match d.nextCmd 0x10 with
  | none => d
  | some (n, s) =>
    let d := d.beginCmd n
    let c := argLE s 0 1
    let first := argLE s 1 1
    let cnt := argLE s 2 1
    let src := argLE s 3 1
    let addr := argLE s 8 8
    if c = 0 || 63 < c then d.endCmd now n stBadArg 8
    else if cnt = 0 then d.endCmd now n stBadArg 10
    else if 1 < src then d.endCmd now n stBadArg 11
    else if addr % 2 ≠ 0 then d.endCmd now n stBadArg 16
    else if 64 < first + cnt then d.endCmd now n stBadLength
    else if src = 1 && d.domOn 7 && decide ((if d.partEn 4 then d.partBytes 4 else 0) < addr + 2 * cnt) then
      d.endCmd now n stBadLength
    else if !d.domOn 2 || (src = 1 && !d.domOn 7) || s.early = 1 then d.endCmd now n stRefState
    else if (d.cx c).load.isSome || (src = 1 && !d.cap.storeWr.isEmpty) then d.endCmd now n stBusy
    else if (d.cx c).st == .fault then d.endCmd now n stAborted
    else if src = 0 && !d.bus.busMaster then d.endCmd now n stHwFault
    else d.updCtx c (fun x => { x with load := some (n, false), loadVals := [] })
/-- CTX_LOAD_READ_END: the data is read; from the store, it is what the store holds (R217). -/
def doCtxLoadRead (d : Dev) (now c : Nat) (x : Xfer) : Dev :=
  match (d.cx c).load with
  | some (n, false) =>
    match d.slot n with
    | none => d
    | some s =>
      let cnt := argLE s 2 1
      let addr := argLE s 8 8
      let fromCap := argLE s 3 1 == 1
      match x with
      | .pcieErr b _ => (d.corrected fromCap x).loadEnd now c stHwFault b
      | .eccErr b _ => (((d.corrected fromCap x).modCap (fun q => { q with eccU := sat1 16 q.eccU })).raise 0x2C 5).loadEnd now c stHwFault b
      | .ok ws _ =>
        let vals := if fromCap then
            (List.range cnt).map (fun i =>
              (tget 0 d.cap.store (addr + 2 * i)).toNat + 256 * (tget 0 d.cap.store (addr + 2 * i + 1)).toNat)
          else ws
        if vals.length ≠ cnt then d
        else (d.corrected fromCap x).updCtx c (fun y => { y with
          load := some (n, true), loadVals := vals.zipIdx.map (fun p => (argLE s 1 1 + p.2, sx 16 p.1)) })
  | _ => d

/-- The average demand per period in cycles under given factors (R194). -/
def latDemand (d : Dev) (dec : List Nat) : Rat :=
  let l := allCtx.filter (fun c => (d.cx c).en && runs (d.cx c).st)
  sumR (l.map (fun c =>
    let w : Rat := (d.costOf c).1 * d.nElem c
    if d.cxDec c then w / ((2 ^ d.ctxCfg c 26 24 * nOf dec (d.cxClass c) : Nat) : Rat) else w)) / 8
/-- The sprint budget in force (R194). -/
def sb (d : Dev) : Nat := min d.therm.sbTh d.therm.sbSup
/-- One step of the decimation factors at a housekeeping round, from the factors last chosen, with its event; FLOOR goes by the factors in
force (R194, R195). DEDUCED [77]. -/
def latRound (d : Dev) (h : HkData) : Dev :=
  if !d.domOn 2 then d
  else
    let d := d.modLat (fun l => { l with duty := h.duty, peakAll := h.peakAll, peakC0 := h.peakC0 })
    let d := d.each allCtx (fun d c => d.updCtx c (fun x => { x with slack := tget 0xFFFF h.slack c }))
    let mn := d.rd 0x20 0x400
    let mins := [bits mn 2 0, bits mn 6 4, bits mn 10 8]
    let dec := List.zipWith max d.lat.decNext mins
    let lim : Rat := (d.sb : Rat) * (4 * d.lat.tc / 5 : Rat) / 64
    let inForce := d.latDemand d.lat.dec
    let d :=
      if inForce ≤ lim then d.modLat (fun l => { l with floor := false })
      else if d.lat.dec.all (· == 7) && !d.lat.floor then (d.modLat (fun l => { l with floor := true })).raise 0x20 4
      else d
    let up := fun (i : Nat) => dec.set i (dec.getD i 0 + 1)
    let dn := fun (i : Nat) => dec.set i (dec.getD i 0 - 1)
    let next :=
      if lim < d.latDemand dec then
        match [2, 1, 0].find? (fun i => decide (dec.getD i 0 < 7)) with
        | some i => up i
        | none => dec
      else
        match [0, 1, 2].find? (fun i => decide (0 < dec.getD i 0)) with
        | some i => if mins.getD i 0 < dec.getD i 0 && decide (d.latDemand (dn i) ≤ 7 / 8 * lim) then dn i else dec
        | none => dec
    let changed := next != d.lat.decNext
    let d := d.modLat (fun l => { l with decNext := next })
    if changed then d.raise 0x20 5 else d
/-- A new factor takes effect from a period whose index is a multiple of 128 (R194). -/
def decTurn (d : Dev) (m : Nat) : Dev :=
  if (m + 1) % 128 = 0 then d.modLat (fun l => { l with dec := l.decNext }) else d

/-- An accepted PERIOD or LOOP_LAT takes effect by period m (R181). -/
def latTurn (d : Dev) (now m : Nat) : Dev :=
  let d := match d.lat.tcNext with
    | some (v, t) => if t ≤ m * v && decide (m * v ≤ now) then d.modLat (fun l => { l with tc := v, tcNext := none }) else d
    | none => d
  match d.lat.latNext with
  | some (v, t) => if t ≤ m * d.lat.tc then d.modLat (fun l => { l with lat := v, latNext := none }) else d
  | none => d
/-- Where no commit runs, the values take effect at their instants. DESIGN CHOICE [22]: seen at the block boundary. -/
def latIdleTurn (d : Dev) (now : Nat) : Dev :=
  if d.latOn then d
  else
    let d := match d.lat.tcNext with
      | some (v, t) => if t ≤ now then d.modLat (fun l => { l with tc := v, tcNext := none }) else d
      | none => d
    match d.lat.latNext with
    | some (v, t) => if t ≤ now then d.modLat (fun l => { l with lat := v, latNext := none }) else d
    | none => d

end Dev

/-- INPUT_LATCH (R184). -/
def execInputLatch (c e i : Nat) (s : State) : Host.Outcome State Fault Refusal := onDev s (fun t d => d.doLatch t c e i)
/-- INSTANCE_END (R186, R188). -/
def execInstanceEnd (c e : Nat) (s : State) : Host.Outcome State Fault Refusal := onDev s (fun t d => d.doInstance t c e)
/-- CMD_CTX_LOAD (R217). -/
def execCmdCtxLoad (s : State) : Host.Outcome State Fault Refusal := onDev s (fun t d => d.doCtxLoad t)
/-- CTX_LOAD_READ_END (R217). -/
def execCtxLoadReadEnd (c : Nat) (x : Xfer) (s : State) : Host.Outcome State Fault Refusal :=
  onDev s (fun t d => d.doCtxLoadRead t c x)

end Sys2Proof.Machine
end

