-- ==== Sys2Proof/Machine/Block.lean ====
section
/-! DEFINITION. The Facet block boundary: link states, what a block starts with, and the units that start or restart
(chapters 03 and 05); echoes; and the rows of the Facet links. -/

namespace Sys2Proof.Machine
namespace Dev

/-- The node type that belongs on a link (R93). -/
def typeFor (k : Nat) : Nat := if isLeg k then 2 else 1
/-- Two blocks of preambles and hellos have been seen (Table 3.13). -/
def helloSeen (d : Dev) (k : Nat) : Bool :=
  let l := d.lk k
  l.bRun == 2 && l.hRun == 2 && l.hPrev.isSome && decide (1 ≤ d.stage.rank)
/-- A link enters HELLO: the identity is shown, ADMIT goes out where the node type fits, the learnt offsets of the
node's sensors start at 0 (R86, R350). DESIGN CHOICE [84]: DELAY and its echoes stand over LOST and clear here. -/
def enterHello (d : Dev) (now k : Nat) : Dev :=
  match (d.lk k).hPrev with
  | none => d
  | some (ty, rev, lo, hi) =>
    let seq := (d.lk k).msgSeq
    let fits := ty = typeFor k
    let d := (d.linkIdle now k .hello).updLink k (fun l => { l with
      nodeType := ty, nodeRev := rev, serial := hi * 2 ^ 32 + lo, echoes := [], nEcho := 0, rejRun := [], delay := 0
      admitSeq := if fits then some seq else none })
    let d := if fits then d.queueMsg k 0x4 (k * 2 ^ 26) else d
    let d := d.each [0, 1, 2] (fun d q => d.updSensor (20 + 3 * k + q) (fun s => { s with ofs := 0 }))
    d.arrUpdate.raiseLog now (facetPage k) 0 k

/-- A configuration word that waits in a link's queue (Table 4.2). -/
def cfgWord (w : Nat) : Bool := decide (0x10 ≤ bits w 21 16)
/-- A link may become ACTIVE (Table 3.13), once no configuration word waits for it (R98). DEDUCED [73]. -/
def mayActive (d : Dev) (k : Nat) : Bool :=
  let l := d.lk k
  l.st == .standby && d.stage == .run && d.inTopo k && d.domOn (unitDomain k) && l.upCrc == some (d.cfgCrc k) &&
    d.effective k == .none && !l.ctlQ.any cfgWord
/-- A cell re-entering service starts in GOOD, with no event cause of before and its junction filter not begun (R150,
R153). -/
def vertexEntry (d : Dev) (k : Nat) : Dev :=
  if k < 48 then
    d.updCell k (fun c => { c with health := .good, clean := 0, cause := false, leave := false, dtjOn := false })
  else d
/-- A unit starts under V = 1; SAFE_STATE 0 is sent first (R61, R137, Table 4.3). DEDUCED [17]. -/
def restart (d : Dev) (now k : Nat) : Dev :=
  ((d.startUnit now k).vertexEntry k).updLink k (fun l => { l with safeQ := some (0, 2), txQ := [], patQ := [], repQ := [] })
/-- A link enters ACTIVE: its unit starts, and the flux of its core restarts from 0 (R137, R243). -/
def enterActive (d : Dev) (now k : Nat) : Dev :=
  let d := (d.updLink k (fun l => { l with st := .active })).restart now k
  let d := if k < 48 then d.updModel k (fun m => { m with lam := 0 }) else d
  d.osLink now k false
/-- A link leaves ACTIVE for STANDBY, its event is raised, and its unit no longer modulates; SAFE_STATE words still to
be sent are kept (Tables 3.13 and 3.20, R103). -/
def leaveActive (d : Dev) (now k : Nat) : Dev :=
  let d := d.updLink k (fun l => { l with
    st := .standby, safeQ := l.safeQ.filter (fun q => q.1 != 0), txQ := [], patQ := [], repQ := [] })
  let d := d.updChord k (fun c => { c with
    mode := if c.mode == .held then .held else .idle
    legA := { carry := c.legA.carry }, legB := { carry := c.legB.carry } })
  (d.raiseLog now (facetPage k) 1 k).withdrawClear k

/-- The transition of a link at a block boundary (Table 3.13). -/
def linkTurn (now : Nat) (d : Dev) (k : Nat) : Dev :=
  let l := d.lk k
  match l.st with
  | .down => if d.helloSeen k then d.enterHello now k else d
  | .lost | .mismatch =>
    if d.helloSeen k then d.enterHello now k else if l.seen then d else d.linkIdle now k .down
  | .hello =>
    if !l.seen || l.lossUp then d.linkIdle now k .down
    else if (l.nodeType = 1 || l.nodeType = 2) && l.nodeType ≠ typeFor k then
      (d.linkIdle now k .mismatch).raiseLog now (facetPage k) 3 k
    else if l.admitted && l.nodeType = typeFor k then d.updLink k (fun l => { l with st := .align, cfg := [] })
    else d
  | .align =>
    if !l.seen then d.linkIdle now k .down
    else if l.nEcho = 16 && l.dsetAck && l.aligned then
      (d.updLink k (fun l => { l with st := .standby })).raiseLog now (facetPage k) 1 k
    else d
  | .standby =>
    if !l.seen then d.linkIdle now k .down else if d.mayActive k then d.enterActive now k else d
  | .active =>
    let differ := l.upCrc != some (d.cfgCrc k)
    let d' := if differ && l.crcMatch && d.stage == .run then d.crcLost now k else d
    if d.stage != .run || !l.aligned || differ then d'.leaveActive now k else d

/-- What a link's block starts with: the check of the CFG_CRCs, configuration changes, one ECHO_REQ, the block status,
new word limits (R67, R75, R88, R90, R98). -/
def linkStart (now n : Nat) (d : Dev) (k : Nat) : Dev :=
  let d := if (d.lk k).crcMatch && (d.lk k).upCrc != some (d.cfgCrc k) then d.crcLost now k else d
  let d := d.syncCfg k
  let d := if d.linked k then d.updLink k (fun l => { l with mgtQ := l.mgtQ ++ [0xC40000 + n % 16] }) else d
  let st := d.mkStatus k n
  d.updLink k (fun l => { l with dsStatus := st, ctlN := 0, mgtN := 0, patN := 0, seen := false })

/-- A unit whose hold was cleared in RUN re-enters service at the boundary (R377, R137). -/
def unheld (now : Nat) (d : Dev) (k : Nat) : Dev :=
  if (d.lk k).st == .active && (d.ch k).mode == .held && d.effective k == .none && d.stage == .run && d.inTopo k then
    d.restart now k
  else d
/-- A running disarm completes when no link is ACTIVE any more (R393). -/
def disarmEnd (d : Dev) (now : Nat) : Dev :=
  match d.boot.disarming with
  | some n =>
    if allUnits.all (fun k => (d.lk k).st != .active) then
      (d.endCmd now n stDone).modBoot (fun b => { b with disarming := none })
    else d
  | none => d
/-- What follows the links' transitions at a boundary. -/
def boundaryRest (d : Dev) (now : Nat) : Dev :=
  let d := d.each allUnits (unheld now)
  let d := d.each d.strings rephase
  (d.each d.strings (fun d s => d.svcCheck now s)).disarmEnd now
/-- BLOCK_BOUNDARY (R86). -/
def doBlock (d : Dev) (now n : Nat) : Dev :=
  if n < 2 then d
  else
    let d := (d.each allUnits (linkTurn now)).boundaryRest now
    let d := d.each allUnits (linkStart now n)
    let d := d.modelBlock.each allUnits (fun d k => d.updChord k (fun c => { c with swBlk := false }))
    d.latIdleTurn now

/-- Distances of a run of echoes: all within a window of each other. -/
def agree (w : Int) (l : List Int) : Bool := decide (maxI 0 l - minI 0 l ≤ w)
/-- DELAY takes the mean of the echoes; a change of its whole ticks, or a first value, is sent (R82, R83). -/
def setDelay (d : Dev) (k : Nat) (force : Bool) : Dev :=
  let l := d.lk k
  let m := (Config.roundAt 24 ((l.echoes.foldl (· + ·) 0 * 8 : Int) / (l.echoes.length : Rat))).toNat
  let d := d.updLink k (fun x => { x with delay := m })
  let d := if force || m / 16 != l.delay / 16 then d.sendDelay k else d
  if m = l.delay then d else d.arrUpdate
/-- ECHO (R81, R82). -/
def doEcho (d : Dev) (now k tag turn edge : Nat) : Dev :=
  if 52 ≤ k || !d.linked k then d
  else
    let l := d.lk k
    match l.echoReq with
    | none => d
    | some (t, p) =>
      if t ≠ tag then d
      else
        let rtt : Int := (edge : Int) - 16 * p
        let half : Int := rtt - turn + d.asym k
        let cfg := d.rd (facetPage k) 0x28
        let win : Int := (bits cfg 7 0 : Nat)
        let d := d.updLink k (fun x => { x with echoReq := none, rtt := ux 20 rtt, turn := turn, asymF := d.asym k })
        let d := if l.asymF = d.asym k then d else d.arrUpdate
        if !l.echoes.isEmpty && decide (16 * win < 8 * half - l.delay ∨ 8 * half - l.delay < -(16 * win)) then
          let run := half :: l.rejRun
          let run := (run.take (bits cfg 11 8))
          let d := d.updLink k (fun x => { x with echoRej := sat1 16 x.echoRej, rejRun := run })
          if run.length = bits cfg 11 8 && agree (2 * win) run then
            ((d.updLink k (fun x => { x with echoes := run, rejRun := [] })).alignStep now k).setDelay k true
          else d
        else
          let d := d.updLink k (fun x => { x with
            echoes := (half :: x.echoes).take 16, rejRun := [], nEcho := min 16 (x.nEcho + 1) })
          d.setDelay k l.echoes.isEmpty

end Dev

/-- DOWNSTREAM_SUBFRAME (R74). -/
def execDownstreamSubframe (k n j : Nat) (s : State) : Host.Outcome State Fault Refusal := onDev s (fun _ d => d.doDownSub k n j)
/-- BLOCK_BOUNDARY (R86). -/
def execBlockBoundary (n : Nat) (s : State) : Host.Outcome State Fault Refusal := onDev s (fun t d => d.doBlock t n)
/-- UPSTREAM_SUBFRAME (R62, R80). -/
def execUpstreamSubframe (k edge pre word : Nat) (v u c p : Bool) (s : State) : Host.Outcome State Fault Refusal :=
  onDev s (fun t d => d.doUpSub t k edge pre word v u c p)
/-- LINK_LOSS (R86). -/
def execLinkLoss (k : Nat) (s : State) : Host.Outcome State Fault Refusal := onDev s (fun t d => d.doLinkLoss t k)
/-- ECHO (R82). -/
def execEcho (k tag turn edge : Nat) (s : State) : Host.Outcome State Fault Refusal :=
  onDev s (fun t d => d.doEcho t k tag turn edge)
/-- UPSTREAM_BLOCK_STATUS (R75). -/
def execUpstreamBlockStatus (k edge : Nat) (s : State) : Host.Outcome State Fault Refusal :=
  onDev s (fun t d => d.doUpStatus t k edge)
/-- HELLO_ID (R86); NODE_TYPE shows it (Table 3.19). -/
def execHelloId (k ty rev : Nat) (s : State) : Host.Outcome State Fault Refusal :=
  onDev s (fun t d => d.doHello t k (fun l => { l with hId := some (ty, rev), nodeType := ty }) true)
/-- SERIAL_LO (R86). -/
def execSerialLo (k v : Nat) (s : State) : Host.Outcome State Fault Refusal :=
  onDev s (fun t d => d.doHello t k (fun l => { l with hLo := some v }) false)
/-- SERIAL_HI (R86). -/
def execSerialHi (k v : Nat) (s : State) : Host.Outcome State Fault Refusal :=
  onDev s (fun t d => d.doHello t k (fun l => { l with hHi := some v }) false)
/-- ACK (R83, R86). -/
def execAck (k ty seq : Nat) (s : State) : Host.Outcome State Fault Refusal := onDev s (fun _ d => d.doAck k ty seq)
/-- U_ERR (R78). -/
def execUErr (k : Nat) (crcBad : Bool) (s : State) : Host.Outcome State Fault Refusal := onDev s (fun _ d => d.doUErr k crcBad)

end Sys2Proof.Machine
end

