-- ==== Sys2Proof/Machine/Stream.lean ====
section
/-! DEFINITION. The stream ports (chapter 13): receivers with their states, concealment and mutes, the placement of
samples for Spline, the host ring, and transmitters. -/

namespace Sys2Proof.Machine

/-- The rate code whose frame interval an interval in ticks has, within 0.1 % (R323, R325). DEDUCED [23]. -/
def rateOf (ivl : Nat) : Nat :=
  ((List.range 10).drop 1).find? (fun c =>
    decide ((ivl : Rat) - fNom c ≤ fNom c / 1000 ∧ fNom c - (ivl : Rat) ≤ fNom c / 1000)) |>.getD 0
/-- The cubic of R329 through four samples at a place between the middle two. -/
def cubic (mu : Rat) (a b c e : Int) : Rat :=
  -mu * (mu - 1) * (mu - 2) / 6 * a + (mu + 1) * (mu - 1) * (mu - 2) / 2 * b -
    (mu + 1) * mu * (mu - 2) / 2 * c + (mu + 1) * mu * (mu - 1) / 6 * e
/-- The CRCC of AES3 over the first 23 bytes of a channel status (R336, R342). PRESUMED [24]. -/
def crcc (v : Nat) : Nat :=
  (List.range 184).foldl (fun r i => if bit r 0 != bit v i then (r / 2) ^^^ 0xB8 else r / 2) 0xFF
/-- Slots 4 to 31 of a subframe: word, V, U, C, and P for even parity (R322). -/
def subWord (w : Nat) (v u c : Bool) : Nat :=
  let x := w % 2 ^ 24 + b2n v * 2 ^ 24 + b2n u * 2 ^ 25 + b2n c * 2 ^ 26
  x + ones 27 x % 2 * 2 ^ 27
/-- Slots 4 to 31 of a received subframe, its parity bit as it came (R322). -/
def rxBits (w : RxSub) (v p : Bool) : Nat := w.word % 2 ^ 24 + b2n v * 2 ^ 24 + b2n w.u * 2 ^ 25 + b2n w.c * 2 ^ 26 + b2n p * 2 ^ 27
/-- The stamp of a preamble in ticks, from the words in which RX_TS shows it and FINE (R326). -/
def rxStamp (hi lo fine : Nat) : Nat := 16 * (hi * 2 ^ 32 + lo) + fine
/-- A received subframe brings no sample: its parity fails, or V = 1 (Tables 13.1 and 13.3). -/
def subMissing (x : Nat) : Bool := bit x 24 || ones 28 x % 2 == 1
/-- The sample-frequency and word-length bits of the channel status a transmitter sends (R342, IEC 60958-3 and AES3).
PRESUMED [24]. -/
def txStatus (pro : Bool) (rate : Nat) : Nat :=
  if pro then
    let b0 := 1 + ([0, 3, 1, 2].getD rate 0) * 64
    let b4 := ([0, 0, 0, 0, 10, 2, 11, 3].getD rate 0) * 8
    let v := b0 + 0x2C * 2 ^ 16 + b4 * 2 ^ 32
    v + crcc v * 2 ^ 184
  else ([1, 3, 0, 2, 8, 10, 12, 14].getD rate 1) * 2 ^ 24 + 0xB * 2 ^ 32

namespace Dev

def txCfg (d : Dev) (n hi lo : Nat) : Nat := d.fld 0x30 (0x120 + 0x40 * n) hi lo
/-- The receiver takes what arrives at its pins: the SP7 pair is ignored while IRIG-B holds the receiver (R325, R447). -/
def rxHears (d : Dev) (n : Nat) : Bool := d.rxOn n && !(n == 7 && (d.src == 2 || d.src == 3))
/-- The source of a recovered clock is LOCKED at the transmitter's rate (R341). -/
def txSrcOk (d : Dev) (n : Nat) : Bool :=
  let p := d.port! (d.txCfg n 6 4)
  p.st == .locked && p.rate == d.txCfg n 19 16
/-- F_nom of a transmitter's rate in ticks, and its block. -/
def txNom (d : Dev) (n : Nat) : Rat := fNom (d.txCfg n 19 16)
/-- Recovered-clock transmitters whose source is lost fall back: the next frame follows the last at F_nom (R341). -/
def txFallCheck (d : Dev) (now : Nat) : Dev :=
  d.each (List.range 8) (fun d n =>
    let p := d.port! n
    if p.txRun && !p.txFall && d.txCfg n 8 8 == 1 && !d.txSrcOk n then
      let i : Nat := if p.txPer = 0 then 0 else min 191 ((16 * now - p.txTs : Nat) / p.txPer : Rat).floor.toNat
      (d.updPort n (fun p => { p with
        txFall := true, txCut := i, txNext := p.txTs + i * p.txPer + ((192 - i : Nat) : Rat) * d.txNom n })).raiseLog now 0x30 7 n
    else d)
/-- A receiver whose EN sets (R325); a rate it no longer accepts leaves LOCKED, and LAT may be below its bound (R331,
R341). -/
def rxEnable (d : Dev) (now n : Nat) : Dev := ((d.rxWake now n d.readyRun).rxLatCheck now).txFallCheck now

/-- One frame of the present block is held: its samples, their bits and words, under the frame's number (R327, R339). -/
def rxKeep (p : Port) (x1 x2 : Int) (u1 u2 : Nat) (c : Bool × Bool) (u : Bool × Bool) : Port :=
  let put := fun (m : Nat) (b : Bool) => setBit m p.nFrames b
  { p with
    frames := ((p.tb, p.nFrames, x1, x2) :: p.frames).take 2112, nFrames := p.nFrames + 1
    words := ((u1, u2) :: p.words).take 192, colC1 := put p.colC1 c.1, colC2 := put p.colC2 c.2
    colU1 := put p.colU1 u.1, colU2 := put p.colU2 u.2 }
/-- The samples last held. -/
def rxLast (p : Port) : Int × Int :=
  match p.frames with
  | (_, _, a, b) :: _ => (a, b)
  | [] => (0, 0)
/-- The samples of absent frames are held at the grid instants (R327, R332); their channel-status and user bits are free
values [61]. -/
def conceal (d : Dev) (n k : Nat) : Dev :=
  let (f, d) := d.drawFree
  d.updPort n (fun p =>
    let p := (List.range k).foldl (fun (p : Port) i =>
      let (a, b) := rxLast p
      let fr := fun (j : Nat) => bit (Config.freeNat f) (4 * i + j)
      rxKeep p a b (ux 24 a) (ux 24 b) (fr 0, fr 1) (fr 2, fr 3)) p
    { p with
      conceal := satN 16 p.conceal k, blkConc := true, stableOk := false, pa := false
      s1 := { p.s1 with good := 0 }, s2 := { p.s2 with good := 0 } })
/-- CONCEAL is raised after a period with none (Table 13.11). -/
def concealEv (d : Dev) (now n : Nat) : Dev :=
  if (d.port! n).concealing then d else (d.updPort n (fun p => { p with concealing := true })).raiseLog now 0x30 0 n

/-- A sample of a subframe: held where missing; three in a row mute, 192 good ones clear it (Table 13.3). -/
def rxSample (s : RxSt) (missing : Bool) : RxSt :=
  if missing then { s with miss := min 3 (s.miss + 1), good := 0, cMiss := s.cMiss || decide (2 ≤ s.miss) }
  else
    let g := min 192 (s.good + 1)
    { s with miss := 0, good := g, cMiss := s.cMiss && decide (g < 192) }
/-- A stream becomes non-audio (R338). -/
def nonAudio (d : Dev) (now ts n : Nat) : Dev :=
  let was := (d.port! n).nonaudio
  let d := d.rxUpd now n (fun p => { p with nonaudio := true, audioRun := 0 })
  if was then d else d.raiseLog ts 0x30 5 n

/-- A block begins on the grid (R327). -/
def rxNewBlock (p : Port) (tb total : Nat) : Port :=
  { p with
    tb := tb, total := total, nFrames := 0, stableOk := true, blkConc := false, burst := false
    colC1 := 0, colC2 := 0, colU1 := 0, colU2 := 0, words := [] }
/-- A rate has been identified: LOCKING, from a preamble B on where one is given (R325). -/
def rxLocking (d : Dev) (now n rate ivl : Nat) (b : Option Nat) : Dev :=
  let d := d.rxUpd now n (fun p => { rxNewBlock p (b.getD p.tb) 0 with
    st := .locking, stable := 0, rate := rate, unsup := false, fhat := ivl, offRun := 0, frames := [], pa := false
    blocks := match b with
      | some e => [(e, 0)]
      | none => [] })
  if d.latBad n then d.rxUpd now n (fun p => { p with latLow := true }) else d
/-- The receiver returns to SEARCH. -/
def rxSearch (d : Dev) (now n : Nat) (unsup : Bool) : Dev :=
  d.rxUpd now n (fun p => { rxForget p with st := .search, unsup := unsup })
/-- A rate that the receiver may identify (R325). -/
def rxRate (d : Dev) (n ivl : Nat) : Nat :=
  let r := rateOf ivl
  let want := d.rxCfg n 11 8
  if want = 0 || want = r then r else 0
/-- A rate change (Table 13.3). -/
def rxRateChange (d : Dev) (now ts n ivl : Nat) : Dev :=
  let d := d.rxUpd now n (fun p => { p with rateChg := sat1 8 p.rateChg })
  let r := d.rxRate n ivl
  let d := if r = 0 then d.rxSearch now n true else d.rxLocking now n r ivl none
  (d.raiseLog ts 0x30 3 n).txFallCheck now
/-- An entry of the host ring, with the PAD entry it may need (R339). DEDUCED [25]: none is written while the device
may not master the bus. -/
def ringPut (d : Dev) (n ts kind flags : Nat) (body : List Nat) : Dev :=
  let size := d.fld 0x30 0x28 23 0
  if size = 0 then d
  else
    let len := 16 + body.length
    let rd := d.fld 0x30 0x30 23 0 % size
    let wr := if size ≤ d.hrWr then 0 else d.hrWr
    let pad := if wr + len ≤ size then 0 else size - wr
    let used := (wr + size - rd) % size
    let base := d.rd 0x30 0x20 + d.rd 0x30 0x24 * 2 ^ 32
    let head := fun (k l : Nat) => bytesLE 8 (ts / 16) ++ [k, n, ts % 16, flags] ++ bytesLE 4 l
    let byt := fun (l : List Nat) => l.map (fun b => BitVec.ofNat 8 b)
    if !d.bus.busMaster || decide (size ≤ used + pad + len) then
      ({ d with hrLost := sat1 32 d.hrLost }).raiseLog (ts / 16) 0x30 8 n
    else
      let d := if pad = 0 then d else d.modBus (fun b => { b with dma := (base + wr, byt (head 3 pad)) :: b.dma })
      let at' := if pad = 0 then wr else 0
      { d with hrWr := (at' + len) % size }.modBus (fun b => { b with dma := (base + at', byt (head kind len ++ body)) :: b.dma })
/-- Channel status of a received block (R336): a professional one whose CRCC fails is discarded. -/
def rxChanStatus (d : Dev) (ts n : Nat) : Dev :=
  let p := d.port! n
  let bad := fun (c : Nat) => bit c 0 && bits c 191 184 != crcc c
  if bad p.colC1 || bad p.colC2 then
    (d.updPort n (fun p => { p with csErr := sat1 16 p.csErr, csOk := false })).raiseLog ts 0x30 6 n
  else d.updPort n (fun p => { p with cs1 := p.colC1, cs2 := p.colC2, csOk := true, pro := bit p.colC1 0 })
/-- What a block of 192 frames carried: channel status, non-audio, and the host ring (R336 to R339). -/
def rxContents (d : Dev) (now ts n : Nat) : Dev :=
  if (d.port! n).nFrames ≠ 192 then d
  else
    let d := d.rxChanStatus ts n
    let p := d.port! n
    let sign := bit p.cs1 1 || bit p.cs2 1
    let d := if sign then d.nonAudio now ts n
      else if p.burst then d
      else
        let r := min 16 (p.audioRun + 1)
        d.rxUpd now n (fun p => { p with audioRun := r, nonaudio := p.nonaudio && decide (r < 16) })
    let p := d.port! n
    let flags := b2n p.csOk + 2 * b2n p.nonaudio + 4 * b2n p.blkConc
    let d := if d.rxCfg n 2 2 = 1 then
        d.ringPut n p.tb 1 flags (bytesLE 24 p.cs1 ++ bytesLE 24 p.cs2 ++ bytesLE 24 p.colU1 ++ bytesLE 24 p.colU2)
      else d
    if d.rxCfg n 1 1 = 1 && p.nonaudio then
      d.ringPut n p.tb 2 flags (p.words.reverse.flatMap (fun w => bytesLE 4 w.1 ++ bytesLE 4 w.2))
    else d
/-- A block ends whose successor's preamble B is missed: the next one begins 192 × F̂ later on the grid (R327).
DEDUCED [61]. -/
def rxMissedB (d : Dev) (now ts n : Nat) : Dev :=
  (d.rxContents now ts n).rxUpd now n (fun p =>
    { rxNewBlock p (Config.roundAt 29 (p.tb + 192 * p.fhat)).toNat (p.total + 192) with stable := 0 })
/-- Frames absent before the present one: those of the present block, then those of the next (R327, R332). -/
def rxGap (d : Dev) (now ts n k : Nat) : Dev :=
  let room := 192 - (d.port! n).nFrames
  let d := if k < room then d.conceal n k else ((d.conceal n room).rxMissedB now ts n).conceal n (k - room)
  d.concealEv ts n
/-- RX_FRAME (R322, R327, R332, R333): a frame whose subframes are a and b. -/
def doRxFrame (d : Dev) (now n edge a b : Nat) : Dev :=
  if !d.rxHears n then d
  else
    let p := d.port! n
    let ivl : Nat := match p.lastFrame with
      | some l => edge - l
      | none => 0
    let f := p.fhat
    let ts := edge / 16
    let off := ivl != 0 && decide ((ivl : Rat) < f * 98 / 100 ∨ f * 102 / 100 < ivl)
    let d := d.rxUpd now n (fun p => { p with lastFrame := some edge, ivl := if ivl = 0 then p.ivl else ivl })
    if p.st == .search then d
    else
      let steady := ivl = 0 || decide ((ivl : Rat) - fNom p.rate ≤ fNom p.rate / 1000 ∧ fNom p.rate - (ivl : Rat) ≤ fNom p.rate / 1000)
      let d := d.updPort n (fun p => { p with offRun := if off then p.offRun + 1 else 0, stableOk := p.stableOk && steady })
      if decide ((d.port! n).offRun = 8) then d.rxRateChange now ts n ivl
      else if p.blocks.isEmpty then d
      else
        let gaps := if f = 0 || ivl = 0 then 0 else (rnd ((ivl : Rat) / f)).toNat - 1
        let d := if gaps = 1 || gaps = 2 then d.rxGap now ts n gaps else d
        let d := if (d.port! n).nFrames < 192 then d else d.rxMissedB now ts n
        let b1 := subMissing a
        let b2 := subMissing b
        let u1 := a % 2 ^ 24
        let u2 := b % 2 ^ 24
        let q := d.port! n
        let third := (b1 && decide (q.s1.miss = 2)) || (b2 && decide (q.s2.miss = 2))
        let pa1 := q.pa && u1 / 256 = 0x4E1F
        let pa2 := u1 / 256 = 0xF872 && u2 / 256 = 0x4E1F
        let d := d.rxUpd now n (fun p =>
          let (l1, l2) := rxLast p
          let p' := rxKeep p (if b1 then l1 else sx 24 u1) (if b2 then l2 else sx 24 u2) u1 u2 (bit a 26, bit b 26) (bit a 25, bit b 25)
          { p' with
            par := satN 16 p.par (b2n b1 + b2n b2), s1 := rxSample p.s1 b1, s2 := rxSample p.s2 b2
            fhat := if p.blocks.length < 17 then
                match p.blocks.getLast? with
                | some e => if edge ≤ e.1 then p.fhat else ((edge - e.1 : Nat) : Rat) / (p.total + p.nFrames - e.2 : Nat)
                | none => p.fhat
              else p.fhat
            pa := decide (u2 / 256 = 0xF872), burst := p.burst || pa1 || pa2 })
        let d := if third then d.raiseLog ts 0x30 4 n else d
        if pa1 || pa2 then d.nonAudio now ts n else d
/-- A completed block is judged (R325, R328, R331). -/
def rxJudge (d : Dev) (now n edge : Nat) : Dev :=
  let p := d.port! n
  let bs := ((edge, p.total + 192) :: p.blocks).take 17
  let e := bs.getLast?.getD (0, 0)
  let f : Rat := if bs.length = 1 then p.fhat else ((edge - e.1 : Nat) : Rat) / (p.total + 192 - e.2 : Nat)
  let ppmOk := f != 0 && decide (fNom p.rate - f ≤ f / 5000 ∧ f - fNom p.rate ≤ f / 5000)
  let good := p.stableOk && ppmOk && decide (p.nFrames = 192)
  let d := d.rxUpd now n (fun p => { p with fhat := f, blocks := bs, stable := if good then min 16 (p.stable + 1) else 0 })
  let d := d.rxUpd now n (fun p => { p with latLow := d.latBad n || (p.latLow && !good) })
  if p.st == .locked && !ppmOk then
    (d.rxUpd now n (fun p => { p with ofs := true, st := .locking, stable := 0 })).txFallCheck now
  else if p.st == .locking && decide ((d.port! n).stable = 16) then
    (d.rxUpd now n (fun p => { p with st := .locked, ofs := false, lost := false })).raiseLog (edge / 16) 0x30 1 n
  else d
/-- RX_BLOCK: a preamble B (R325 to R328, R336 to R339). -/
def doRxBlock (d : Dev) (now n edge : Nat) : Dev :=
  if !d.rxHears n then d
  else
    let p := d.port! n
    if p.st == .search then
      let r := d.rxRate n p.ivl
      let d := if p.ivl = 0 then d
        else if r = 0 then d.rxUpd now n (fun p => { p with unsup := true })
        else d.rxLocking now n r p.ivl (some edge)
      d.updPort n (fun p => { p with ts := edge })
    else if p.blocks.isEmpty then
      d.rxUpd now n (fun p => { rxNewBlock p edge 0 with ts := edge, blocks := [(edge, 0)] })
    else
      let miss := 192 - p.nFrames
      let d := if miss = 1 || miss = 2 then
          ((d.conceal n miss).concealEv (edge / 16) n).updPort n (fun p => { p with lastFrame := none })
        else d
      let d := (d.rxContents now (edge / 16) n).rxJudge now n edge
      d.updPort n (fun p => { rxNewBlock p edge (p.total + 192) with
        ts := edge, concealing := p.concealing && p.blkConc })
/-- RX_LOSS (Table 13.3). -/
def doRxLoss (d : Dev) (now n : Nat) : Dev :=
  if !d.rxOn n then d
  else if (d.port! n).st == .search then d.rxSearch now n false
  else (((d.rxSearch now n false).updPort n (fun p => { p with lost := true })).raiseLog now 0x30 2 n).txFallCheck now

/-- The placed value of a subframe at the step for an instant, and whether it underran (R329, R330). -/
def rxPlace (d : Dev) (n sub : Nat) (s : Int) : Option Rat :=
  let p := d.port! n
  let tau := fun (q : Nat × Nat × Int × Int) => (q.1 : Rat) + p.fhat * (q.2.1 : Nat)
  let v := fun (q : Nat × Nat × Int × Int) => if sub = 2 then q.2.2.2 else q.2.2.1
  let later := p.frames.takeWhile (fun q => decide (16 * (s : Rat) < tau q))
  match p.frames.drop later.length, later.reverse with
  | q0 :: qm :: _, q1 :: q2 :: _ =>
    if p.fhat = 0 then none
    else
      let mu : Rat := (rnd ((16 * (s : Rat) - tau q0) / p.fhat * 65536) : Rat) / 65536
      some (cubic mu (v qm) (v q0) (v q1) (v q2))
  | _, _ => none
/-- A stream's Spline target for t_(m+1): placement, underrun, mute (R329 to R332). DEDUCED [26]: a receiver in OFF
places nothing and counts nothing. -/
def streamTarget (d : Dev) (now n sub tNext : Nat) : Int × Dev :=
  if !d.rxOn n then (0, d)
  else
    let mine := fun (p : Port) => if sub = 2 then p.s2 else p.s1
    let put := fun (p : Port) (s : RxSt) => if sub = 2 then { p with s2 := s } else { p with s1 := s }
    let d := match d.rxPlace n sub ((tNext : Int) - d.rxLat n) with
      | none =>
        (d.rxUpd now n (fun p =>
          put { p with underrun := sat1 8 p.underrun } { mine p with cUnder := true, steps := 0 })).raiseLog now 0x30 4 n
      | some x =>
        let d := d.rxUpd now n (fun p =>
          let s := mine p
          let k := min 192 (s.steps + 1)
          put p { s with steps := k, cUnder := s.cUnder && decide (k < 192), placed := x })
        d
    let p := d.port! n
    let s := mine p
    let w : Rat := (rxW p s tNext : Nat) / (wFull : Rat)
    (satI 16 (((w * s.placed + 128) / 256).floor), d)

/-- MUTE_FADE_END: a weight has reached 0; a receiver that closes enters OFF, and a shed PD8 may now turn off (R332,
R335, R359). -/
def doFadeEnd (d : Dev) (now n sub : Nat) : Dev :=
  if !d.rxOn n then d
  else
    let d := d.rxUpd now n (fun p =>
      let p := if sub = 2 && !rxGoal p p.s2 then { p with s2 := { p.s2 with w := 0 } } else p
      let p := if sub = 1 && !rxGoal p p.s1 then { p with s1 := { p.s1 with w := 0 } } else p
      rxMaybeOff p)
    let d := d.txFallCheck now
    if d.pwr.fadeOff && (List.range 8).all (fun m => (d.port! m).s1.w = 0 && (d.port! m).s2.w = 0) then
      d.modPwr (fun p => { p with fadeOff := false })
    else d
/-- Any receiver weight is above 0 (R335). -/
def rxAudible (d : Dev) (now : Nat) : Bool :=
  (List.range 8).any (fun n => decide (0 < rxW (d.port! n) (d.port! n).s1 now ∨ 0 < rxW (d.port! n) (d.port! n).s2 now))

/-- The words, V bits, user bits and channel status of frame 0 of a transmitter's block (R342, R343). -/
def txContent (d : Dev) (n : Nat) : List Nat :=
  let kind := d.txCfg n 13 12
  let s1 := d.fld 0x30 (0x124 + 0x40 * n) 3 0
  let s2 := d.fld 0x30 (0x124 + 0x40 * n) 11 8
  let prism := fun (k : Nat) =>
    let c := d.chan k
    if c.valid then (ux 24 c.out.val, false, c.out.stamp) else (0, true, 0)
  let phas := fun (im : Bool) =>
    match d.phasor.newest with
    | some f =>
      if bit f.flags s1 then
        let z := f.ph.getD s1 (0, 0)
        (ux 32 (if im then z.2 else z.1) / 256, false, (16 * f.sr).toNat)
      else (0, true, 0)
    | none => (0, true, 0)
  let (a, b) := if kind = 1 then (prism s1, prism s2)
    else if kind = 2 then (phas false, phas true)
    else (((0, false, 0), (0, false, 0)) : (Nat × Bool × Nat) × (Nat × Bool × Nat))
  let user := fun (src : Nat) (x : Nat × Bool × Nat) =>
    let u := (if kind = 0 then 0 else x.2.2 % 2 ^ 68) + src * 2 ^ 68 + kind * 2 ^ 72
    u + crc16 u * 2 ^ 176
  let cs := txStatus (d.txCfg n 9 9 == 1) (d.txCfg n 19 16)
  [a.1, b2n a.2.1, b.1, b2n b.2.1, cs, user (if kind = 0 then 0 else s1) a,
    user (if kind = 0 then 0 else if kind = 2 then s1 else s2) b]
/-- A transmitter runs (R340): enabled, its domain on, the stage at READY or above. -/
def txOn (d : Dev) (n : Nat) : Bool := decide (n < 8) && d.domOn 8 && d.readyRun && d.txEn n
/-- A transmitter follows its source at its next block: recovered clocking, the source usable, and no fallback but one
that a RESYNC ends (R340, R341). -/
def txFollows (d : Dev) (n : Nat) : Bool :=
  d.txCfg n 8 8 == 1 && d.txSrcOk n && (!(d.port! n).txFall || (d.port! n).txResync)
/-- The instant in ticks at which a transmitter's next preamble B leaves: 2 × F̂ after its source's, at the next block of
its own clock, or, for the first, at the first j × 192 × F_nom at least 10 µs after the write (R340, R341). -/
def txDue (d : Dev) (n : Nat) : Rat :=
  let p := d.port! n
  let blk := 192 * d.txNom n
  if d.txFollows n then
    let q := d.port! (d.txCfg n 6 4)
    q.ts + 2 * q.fhat
  else if p.txRun then p.txNext
  else ((16 * (p.txFrom + 10000 : Nat) : Rat) / blk).ceil * blk
/-- A preamble B may leave at an edge: within ±1 ns of its instant (R340), to a tick where the source gives it. -/
def txMay (d : Dev) (n edge : Nat) : Bool :=
  let x := (edge : Rat) - d.txDue n
  let tol : Rat := if d.txFollows n then 1 else 16
  d.txOn n && decide (-tol ≤ x ∧ x ≤ tol)
/-- TX_BLOCK (R340 to R343). -/
def doTxBlock (d : Dev) (now n edge : Nat) : Dev :=
  if !d.txMay n edge then d
  else
    let due := d.txDue n
    let per := if d.txFollows n then (d.port! (d.txCfg n 6 4)).fhat else d.txNom n
    let d := d.updPort n (fun p => { p with txRun := true, txTs := edge, txNext := due + 192 * per, txPer := per, txCut := 192 })
    let d := if (d.port! n).txResync then
        d.updPort n (fun p => { p with txResync := false, txFall := !d.txSrcOk n })
      else d
    let d := d.txFallCheck now
    d.updPort n (fun p => { p with txOut := d.txContent n })
/-- Frame f of the present block of a transmitter, whose first preamble leaves in this state: its two subframes. The words
are those in force now, the channel-status and user bits those of the block (R322, R342, R343). -/
def txFrame (d : Dev) (n f : Nat) : Nat × Nat :=
  let p := d.port! n
  let o := p.txOut
  let c := if p.txResync then o else d.txContent n
  let at' := fun (i : Nat) => c.getD i 0
  let cs := bit (o.getD 4 0) f
  (subWord (at' 0) (at' 1 == 1) (bit (o.getD 5 0) f) cs, subWord (at' 2) (at' 3 == 1) (bit (o.getD 6 0) f) cs)
/-- The instant in ticks at which frame f of the present block leaves: past a fallback each follows the last at F_nom
(R341). -/
def txFrameAt (d : Dev) (n f : Nat) : Rat :=
  let p := d.port! n
  p.txTs + min f p.txCut * p.txPer + (f - p.txCut : Nat) * d.txNom n
/-- RESYNC is accepted on fallback while the source is LOCKED at the transmitter's rate; the frames up to the next
block carry V = 1 and value 0 (R341). -/
def txResync (d : Dev) (n : Nat) : Dev :=
  if (d.port! n).txFall && d.txSrcOk n then
    d.updPort n (fun p => { p with txResync := true, txOut := [0, 1, 0, 1] ++ p.txOut.drop 4 })
  else d

end Dev

/-- RX_FRAME (R322, R332, R333). -/
def execRxFrame (n edge : Nat) (w1 w2 : RxSub) (v1 v2 p1 p2 : Bool) (s : State) : Host.Outcome State Fault Refusal :=
  onDev s (fun t d => d.doRxFrame t n edge (rxBits w1 v1 p1) (rxBits w2 v2 p2))
/-- RX_BLOCK (R325, R336, R339). -/
def execRxBlock (n hi lo fine : Nat) (s : State) : Host.Outcome State Fault Refusal :=
  onDev s (fun t d => d.doRxBlock t n (rxStamp hi lo fine))
/-- RX_LOSS (R332). -/
def execRxLoss (n : Nat) (s : State) : Host.Outcome State Fault Refusal := onDev s (fun t d => d.doRxLoss t n)
/-- MUTE_FADE_END (R332, R335). -/
def execMuteFadeEnd (n sub : Nat) (s : State) : Host.Outcome State Fault Refusal := onDev s (fun t d => d.doFadeEnd t n sub)
/-- TX_BLOCK (R340). -/
def execTxBlock (n edge : Nat) (s : State) : Host.Outcome State Fault Refusal := onDev s (fun t d => d.doTxBlock t n edge)

end Sys2Proof.Machine
end

