-- ==== Sys2Proof/Machine/Commit.lean ====
section
/-! DEFINITION. The commit at C_m (chapters 05, 07, 08 and 12): contexts, Spline, Chord, models, pilot run and the DIST
frame, in the order the spec gives. -/

namespace Sys2Proof.Machine

/-- A factor as Q1.15, which cannot hold 1 (Table 9.3, Table 12.8). DEDUCED [27]. -/
def kQ15 (k : Rat) : Nat := min 0x7FFF (rnd (k * 32768)).toNat

namespace Dev

/-- A selector value of a DIST frame (Table 12.8); k_i is the one formed at the last commit (R314). -/
def distVal (d : Dev) (s : Nat) : Nat :=
  let t := bits s 15 12
  let u := bits s 5 0
  if t = 1 then
    match (d.lk (bits s 11 6)).samp.find? (fun p => p.1 == bits s 2 0) with
    | some (_, v, _) => ux 16 (cvtSample v)
    | none => 0
  else if t = 3 then ux 16 (cvtPrism (d.chan (bits s 3 0)).out.val)
  else if t = 4 then ux 16 (d.ctxOut (bits s 11 6) (bits s 3 0) (bits s 5 4))
  else if t = 0xA then (d.vc u).g
  else if t = 0xB then ux 16 (d.ch u).u
  else if t = 0xC then kQ15 (d.mc u).ki
  else 0
/-- The DIST frame of every DIV-th commit, of the values before it (R314, Tables 12.7 and 12.8). -/
def distFrame (d : Dev) (m : Nat) : Dev :=
  let div := max 1 (d.fld 0x2C 0x80 31 24)
  if m % div ≠ 0 then d
  else
    let held := allUnits.any (fun u => d.holdOf u != .none)
    let w := d.stage.code + 8 * b2n (d.locus.st == .locked) + 16 * d.locus.tq + 256 * b2n held + 512 * b2n d.brkTrip +
      1024 * b2n d.faultN
    let vals := (List.range d.nSel).flatMap (fun j =>
      bytesLE 2 (d.distVal (bits (d.rd 0x2C (0x100 + 4 * (j / 2)) / 2 ^ (16 * (j % 2))) 15 0)))
    let pad := List.replicate ((8 - vals.length % 8) % 8) 0
    d.pushFrame 1 { t := d.tm m, bytes := bytesLE 8 (d.tm m) ++ bytesLE 4 w ++ bytesLE 4 m ++ vals ++ pad }

/-- Spline steps the elements of a context (R226). -/
def splines (d : Dev) (c : Nat) : Bool :=
  match (d.cx c).st with
  | .closing => true
  | .closed => true
  | .opened => !d.cxClosed c
  | .idle => false
  | .fault => false
/-- The stream ports and subframes that are stepped from at a commit. -/
def streamUses (d : Dev) : List (Nat × Nat) :=
  (allCtx.filterMap (fun c =>
    let s := (d.cx c).splSrc
    if d.splines c && bits s 15 12 == 1 then some (bits s 6 4, 1 + bits s 0 0) else none)).eraseDups
/-- The Spline target of an element (R225, R242). -/
def splTarget (d : Dev) (streams : List ((Nat × Nat) × Int)) (c e : Nat) : Int :=
  let s := (d.cx c).splSrc
  let k := bits s 15 12
  let t : Int :=
    if k = 1 then
      match streams.find? (fun p => p.1 == (bits s 6 4, 1 + bits s 0 0)) with
      | some p => p.2
      | none => 0
    else if k = 2 then d.ctxOut (bits s 11 6) (bits s 3 0) (bits s 5 4)
    else if k = 3 then d.ctxOut (bits s 11 6) e (bits s 5 4)
    else if k = 4 then cvtPrism (d.chan (bits s 3 0)).out.val
    else (d.elem c e).tgt
  let kl := (d.strings.filter (fun q => d.vCtx q == c)).foldl (fun a q => min a (d.kL q)) 1
  if kl < 1 then Config.roundAt 23 (kl * (t : Rat)) else t
/-- Steps 4 and 5 of R210 for one context: Spline, or the hold of an OPEN loop (R211, R226). -/
def splineCtx (streams : List ((Nat × Nat) × Int)) (d : Dev) (c : Nat) : Dev :=
  let x := d.cx c
  let els := List.range (d.nElem c)
  let slew : Int := (x.slew : Nat)
  let acc : Int := if bit x.accel 31 then (bits x.accel 30 0 : Nat) else 0
  if d.splines c then
    let d := d.each els (fun d e =>
      let t := d.splTarget streams c e * 65536
      d.updElem c e (fun q =>
        let (y, v) := splineStep q.y q.v t slew acc
        { q with y := y, v := v, arrived := decide (y = t) && decide (v = 0) }))
    if x.st == .closing && els.all (fun e => (d.elem c e).arrived) then d.updCtx c (fun x => { x with st := .closed }) else d
  else if x.st == .opened then
    let man : Int := x.man * 65536
    d.each els (fun d e => d.updElem c e (fun q =>
      if q.track then { q with hold := q.hold + clampI (-slew) slew (man - q.hold) } else q))
  else d
/-- An element's Spline has not arrived: at the last step where Spline steps; elsewhere against the present target, free
where that is a stream placement, which nothing has made (R226). DEDUCED [78]. -/
def splMoving (d : Dev) (c : Nat) : Bool :=
  (List.range (d.nElem c)).any (fun e =>
    let x := d.elem c e
    if d.splines c then !x.arrived
    else if bits (d.cx c).splSrc 15 12 = 1 then Config.freeBool (d.free + e)
    else x.y != d.splTarget [] c e * 65536 || x.v != 0)
/-- The instant of the next period (R181). -/
def tNext (d : Dev) (m : Nat) : Nat :=
  match d.lat.tcNext with
  | some (_, t) => if t ≤ d.tm m + d.tc then t else d.tm (m + 1)
  | none => d.tm (m + 1)
/-- Every stream placement of a commit, made once (R329). -/
def streamStep (d : Dev) (now m : Nat) : List ((Nat × Nat) × Int) × Dev :=
  (d.streamUses).foldl (fun a ps =>
    let (v, d) := a.2.streamTarget now ps.1 ps.2 (a.2.tNext m)
    ((ps, v) :: a.1, d)) ([], d)
/-- COMMIT (R188, R210, and the order of chapter 05). -/
def doCommit (d : Dev) (now m : Nat) (mis : List Mismatch) : Dev :=
  if !d.latOn then d
  else
    let old := d
    let d := d.latTurn now m
    let d := d.distFrame m
    let d := d.bypassDue now
    let d := d.each allCtx (faultPol now)
    let d := (d.commitAll now m).each allCtx ctxRelease
    let d := (d.each allCtx commitReq).each allCtx (commitCoef now)
    let (streams, d) := d.streamStep now m
    let d := d.each allCtx (splineCtx streams)
    let d := d.modelCommit now
    let d := d.each d.strings (fun d s => d.vertexObserve m s)
    let d := (d.ptTone m).chordCommit now m mis
    let d := d.ptExcite m
    ((d.modLat (fun l => { l with pidx := m, ran := true })).decTurn m).firstLowest old

end Dev

/-- COMMIT (R188). -/
def execCommit (m : Nat) (mis : List Mismatch) (s : State) : Host.Outcome State Fault Refusal :=
  onDev s (fun t d => d.doCommit t m mis)

end Sys2Proof.Machine
end

