-- ==== Sys2Proof/Machine/Locus.lean ====
section
/-! DEFINITION. Locus (chapter 02): the count of nanoseconds, TAI and UTC, the discipline sources, holdover and
time quality, leap seconds, and the loss of REFCLK. -/

namespace Sys2Proof.Machine

/-- One second in ns. -/
def secNs : Int := 1000000000
/-- The trim limit of R32 and the correction limit of R43, in units of 2^-32 ns per edge. -/
def trimMax : Int := 34359738
def corrMax : Int := 1717986
/-- The move per housekeeping round in RUN, 0.2 ppm (R34). -/
def trimMove : Int := 34359

namespace Dev

def lockWin (d : Dev) : Int := (d.fld 3 0x50 9 0 : Nat)
/-- STEP_THRESH in ns. -/
def stepThresh (d : Dev) : Int := (d.fld 3 0x50 31 16 * 100 : Nat)
def taiUtc (d : Dev) : Nat := d.fld 3 0x4C 7 0
def leapPend (d : Dev) : Bool := d.flag 3 0x4C 8
def leapNeg (d : Dev) : Bool := d.flag 3 0x4C 9
/-- TAI at an instant of SYSCNT (R35). -/
def taiAt (d : Dev) (ts : Nat) : Nat := (ts + d.locus.offset) % 2 ^ 64
/-- The phase error of an edge, in (−0.5 s, 0.5 s] (R42). -/
def phaseOf (d : Dev) (ts : Nat) : Int :=
  let p : Int := ((d.taiAt ts % 1000000000 : Nat) : Int)
  if 500000000 < p then p - secNs else p

/-- The accuracy at entry to HOLDOVER (R52, Table 2.6). The error E of a PPS or IRIG-B source is not the device's to
know: a free value [39]. -/
def holdE0 (d : Dev) : Nat × Dev :=
  if d.src = 4 then (30 + d.locus.errNs, d)
  else
    let (f, d) := d.drawFree
    ((if d.src = 3 then 100 else 30) + Config.freeNat f, d)

/-- The smallest code of Table 2.5 whose bound holds an error. -/
def codeFor (e : Rat) : Nat :=
  match (List.range 11).find? (fun i => decide (e ≤ (10 ^ i : Nat))) with
  | some i => i + 1
  | none => 15
/-- The time-quality code the state gives at an instant (R53). -/
def tqAt (d : Dev) (now : Nat) : Nat :=
  let l := d.locus
  let grown := match l.e0 with
    | some (e0, t0) => codeFor ((e0 : Rat) + (d.fld 3 0x54 15 0 : Nat) * ((now - t0 : Nat) : Rat) / 10000000000)
    | none => 15
  match l.st with
  | .acquire => 15
  | .fault => 15
  | .locked => if d.src = 2 || d.src = 3 then l.srcTq else if l.secsValid then 0 else 15
  | .holdover => max grown l.entryTq
  | .free => if l.freeLost then 15 else grown
/-- What the phasor unit needs of the time state is kept when it changes: the last 10 s and one state before
(R299). -/
def noteTime (d : Dev) (now : Nat) : Dev :=
  let s : PSnap := { t := now, st := d.locus.st, tq := d.locus.tq, left := d.locus.leftLock, leap := d.leapPend, neg := d.leapNeg }
  let keep := d.phasor.hist.filter (fun h => decide (now ≤ h.t + 10000000000))
  let old := (d.phasor.hist.filter (fun h => decide (h.t + 10000000000 < now))).take 1
  d.modPhasor (fun p => { p with hist := s :: (keep ++ old) })
/-- TQ follows the state; a change raises TQ_CHG (R53). -/
def retq (d : Dev) (now : Nat) : Dev :=
  let q := d.tqAt now
  (if q = d.locus.tq then d else (d.modLocus (fun l => { l with tq := q })).raise 3 8).noteTime now

/-- The applied trim takes a value; its course in LOCKED is kept for R52. -/
def applyTrim (d : Dev) (now : Nat) (v : Int) : Dev :=
  let keep := d.locus.hist.filter (fun h => decide (now ≤ h.1 + 16000000000))
  let old := (d.locus.hist.filter (fun h => decide (h.1 + 16000000000 < now))).take 1
  d.modLocus (fun l => { l with trim := v, hist := if l.st == .locked then (now, v) :: (keep ++ old) else l.hist })
/-- The mean of the applied trim over the last 16 s (R52). -/
def trimSum (lo : Nat) : Nat → List (Nat × Int) → Int
  | _, [] => 0
  | t, (t0, v) :: r => v * ((t - max t0 lo : Nat) : Int) + trimSum lo (min t (max t0 lo)) r
def trimMean (d : Dev) (now : Nat) : Int :=
  if now < d.locus.lockTs + 16000000000 then d.locus.trim
  else Config.roundAt 2 ((trimSum (now - 16000000000) now d.locus.hist : Rat) / 16000000000)

/-- Locus changes state: the events of entry to and departure from LOCKED, and the time quality (Table 2.12). -/
def locusGo (d : Dev) (now : Nat) (st : LocusState) : Dev :=
  let old := d.locus.st
  let d := if old == .locked && st != .locked then
      (d.modLocus (fun l => { l with leftLock := some now })).raise 3 1
    else d
  let d := if st == .locked && old != .locked then
      (d.modLocus (fun l => { l with lockTs := now, hist := [(now, l.trim)], recov := 0, rej := [], e0 := none, base := l.target, integ := 0, slew := 0 })).raise 3 0
    else d
  (d.modLocus (fun l => { l with st := st })).retq now
/-- Entry to HOLDOVER: the trim freezes, the error estimate starts (R52, R53). -/
def enterHoldover (d : Dev) (now t0 : Nat) : Dev :=
  let m := d.trimMean now
  let (e, d) := d.holdE0
  let d := d.modLocus (fun l => { l with target := m, e0 := some (e, t0), entryTq := l.tq, recov := 0 })
  d.locusGo now .holdover

/-- The reporting rate of the phasor unit (Table 12.1). -/
def phFs (d : Dev) : Nat := [10, 12, 15, 20, 25, 30, 50, 60, 100, 120, 200, 240].getD (d.fld 0x2A 0x20 11 8) 10
/-- Report instant k of a TAI second (R294). -/
def repAt (d : Dev) (sec k : Nat) : Nat := sec * 1000000000 + (2 * k * 1000000000 + d.phFs) / (2 * d.phFs)
/-- Report instants before an instant of TAI. -/
def repBefore (d : Dev) (tai : Nat) : Nat :=
  tai / 1000000000 * d.phFs +
    ((List.range d.phFs).filter (fun k => decide (d.repAt 0 k < tai % 1000000000))).length
/-- The phasor unit runs. -/
def phasorOn (d : Dev) : Bool := d.domOn 5 && d.flag 0x2A 0x20 0
/-- The report instants that a forward step of OFFSET passes over (R299). -/
def phasorSkip (d : Dev) (t0 t1 : Nat) : Dev :=
  let lo := match d.phasor.lastTai with
    | some l => max t0 (l + 1)
    | none => t0
  let n := d.repBefore t1 - d.repBefore lo
  if d.phasorOn && decide (0 < n) then (d.modPhasor (fun p => { p with skip := satN 32 p.skip n })).raise 0x2A 3 else d

/-- OFFSET steps; the change is logged, and STEP is raised where the rule says so (R37). -/
def offsetStep (d : Dev) (now : Nat) (delta : Int) (ev : Bool) : Dev :=
  let o := ux 64 ((d.locus.offset : Int) + delta)
  if o = d.locus.offset then d
  else
    let t0 := d.taiAt now
    let old := d.locus.offset
    let d := if 0 < delta then d.phasorSkip t0 (t0 + delta.toNat) else d
    let d := (d.modLocus (fun l => { l with offset := o })).modPhasor (fun p => { p with
      steps := (now, old) :: p.steps.filter (fun x => decide (now ≤ x.1 + 10000000000)) })
    let d := d.logEv now 3 (if ev then 2 else 255) 255 0 0 (sx 64 o)
    if ev then d.raise 3 2 else d

/-- The servo's correction for a phase error: the proportional and the integral term at time constant TC, against the
error, within ±10 ppm (R43). DESIGN CHOICE [8]: the gains. -/
def servoCorr (d : Dev) (ph : Int) : Int :=
  let tc := d.fld 3 0x50 15 10
  clampI (-corrMax) corrMax
    (Config.roundAt 60 (-(Config.servoGain true tc * ph + Config.servoGain false tc * (d.locus.integ + ph : Int))))
/-- The servo steers the trim: the trim at the entry to LOCKED plus the correction (R43). -/
def servo (d : Dev) (ph : Int) : Dev :=
  let c := d.servoCorr ph
  d.modLocus (fun l => { l with slew := c, integ := l.integ + ph, target := clampI (-trimMax) trimMax (l.base + c) })
/-- HOST mode: the trim is HOST_TRIM plus the correction, limited (R51). -/
def hostTrim (d : Dev) : Dev :=
  d.modLocus (fun l => { l with target := clampI (-trimMax) trimMax (sx 32 (d.rd 3 0x48) + l.slew) })

/-- An edge is accepted: its stamp and phase error are shown. -/
def takeEdge (d : Dev) (edge : Nat) (ph : Int) : Dev :=
  d.modLocus (fun l => { l with lastEdge := edge, haveEdge := true, phase := ph, rej := [] })
/-- The first row of Table 2.2. -/
def acqFirst (d : Dev) (now edge : Nat) : Dev :=
  let ph := d.phaseOf (edge / 16)
  ((d.takeEdge edge ph).modLocus (fun l => { l with row := 1 })).offsetStep now (-ph) false
/-- A rejected edge (R44). -/
def rejectEdge (d : Dev) : Dev := (d.modLocus (fun l => { l with ppsRej := sat1 32 l.ppsRej, recov := 0 })).raise 3 5
/-- An edge rejected for exceeding STEP_THRESH; three that agree are a step of the source (R44). DEDUCED [68]: the third
stands as the last accepted edge, and as the first of the second row. -/
def rejectStep (d : Dev) (now edge : Nat) (ph : Int) : Dev :=
  let d := d.rejectEdge
  let r := ph :: d.locus.rej.take 2
  if r.length = 3 && decide (maxI 0 r - minI 0 r ≤ d.lockWin) then
    let m := Config.roundAt 1 ((r.foldl (· + ·) 0 : Int) / (3 : Rat))
    let d := (d.modLocus (fun l => { l with lastEdge := edge, haveEdge := true, phase := ph, rej := [], row := 1 })).offsetStep now (-m) true
    d.locusGo now .acquire
  else d.modLocus (fun l => { l with rej := r })

/-- An edge of the timing source that SRC selects (R42 to R45). DESIGN CHOICE [68]: the second row's rounding, and its
interval in whole seconds. -/
def timingEdge (d : Dev) (now edge : Nat) : Dev :=
  let ts := edge / 16
  let ph := d.phaseOf ts
  let l := d.locus
  match l.st with
  | .free => d
  | .fault => d
  | .acquire =>
    if l.row = 0 then d.acqFirst now edge
    else if l.row = 1 then
      let dt : Int := (ts : Int) - ((l.lastEdge / 16 : Nat) : Int)
      let n : Int := max 1 (rnd ((dt : Rat) / 1000000000))
      let ppb : Rat := ((dt - n * secNs : Int) : Rat) / n
      let t := clampI (-trimMax) trimMax (l.trim + rnd (-ppb * (171798691840 / 1000000000)))
      let d := ((d.takeEdge edge ph).modLocus (fun l => { l with target := t, row := 2 })).offsetStep now (-ph) false
      if decide (ph ≤ d.lockWin ∧ -d.lockWin ≤ ph) then d.locusGo now .locked else d
    else if decide (ph ≤ d.lockWin ∧ -d.lockWin ≤ ph) then ((d.takeEdge edge ph).locusGo now .locked).servo ph
    else d.acqFirst now edge
  | .locked =>
    if ts < l.lastEdge / 16 + 500000000 then (d.rejectEdge).modLocus (fun l => { l with rej := [] })
    else if decide (d.stepThresh < ph ∨ ph < -d.stepThresh) then d.rejectStep now edge ph
    else ((d.takeEdge edge ph).retq now).servo ph
  | .holdover =>
    if decide (d.stepThresh < ph ∨ ph < -d.stepThresh) then d.rejectStep now edge ph
    else
      let d := (d.takeEdge edge ph).modLocus (fun l => { l with recov := l.recov + 1 })
      if 2 ≤ d.locus.recov then (d.locusGo now .locked).servo ph else d

/-- PPS_EDGE (R42 to R45): edges are accepted from SAFE onward, in the modes that use PPS_IN. DESIGN CHOICE [83]: the command
is the edge of PPS_IN that CTRL.PPS_POL selects; an edge of the other polarity is no command. -/
def doPpsEdge (d : Dev) (now edge : Nat) : Dev :=
  if decide (1 ≤ d.stage.rank) && (d.src = 1 || d.src = 2) then d.timingEdge now edge else d

/-- Whether a year of the Gregorian calendar is a leap year. -/
def leapYear (y : Nat) : Bool := y % 4 = 0 && (y % 100 != 0 || y % 400 = 0)
/-- Days from 1970-01-01 to 1 January of a year. -/
def daysTo (y : Nat) : Nat :=
  (y - 1970) * 365 + ((y - 1) / 4 - 1969 / 4) - ((y - 1) / 100 - 1969 / 100) + ((y - 1) / 400 - 1969 / 400)
/-- UTC seconds of a frame: the IRIG time plus the time offset (R47). -/
def irigUtc (d : Dev) (f : IrigFrame) : Int :=
  let y := f.year.getD (d.fld 3 0x64 11 0)
  let off : Int := match f.cf with
    | some c => c.off2 * 1800
    | none => 0
  ((((daysTo y + (f.day - 1)) * 24 + f.hour) * 60 + f.min) * 60 + f.sec : Nat) + off
/-- A frame is discarded and counted (R46 to R49). -/
def irigDiscard (d : Dev) : Dev := (d.modLocus (fun l => { l with irigErr := sat1 32 l.irigErr })).raise 3 6
/-- A frame that its own contents condemn (R46, R47). -/
def irigBad (f : IrigFrame) : Bool :=
  (match f.sbs with
    | some b => decide (b ≠ f.hour * 3600 + f.min * 60 + f.sec)
    | none => false) ||
  (match f.cf with
    | some c => !c.parOk || (f.sec = 60 && !c.lsp)
    | none => f.sec = 60)
/-- A frame more than 1 ms from the PPS edge, to the second (R49). DEDUCED [69]: before any edge every frame is. -/
def irigFar (d : Dev) (f : IrigFrame) : Bool :=
  let r := (((f.edge : Int) - d.locus.lastEdge) % 16000000000)
  !d.locus.haveEdge || decide (16000000 < r ∧ r < 16000000000 - 16000000)
/-- LEAP follows the frame's LSP and LS bits (R39). -/
def leapFollow (d : Dev) (now : Nat) (c : IrigCf) : Dev :=
  let rise := c.lsp && !d.leapPend
  let d := (d.wr 3 0x4C (setBit (setBit (d.rd 3 0x4C) 8 c.lsp) 9 c.ls)).noteTime now
  if rise then d.raise 3 3 else d
/-- TAI seconds that a frame names, and its disagreement with TAI at its on-time point in whole seconds (R36, R48). -/
def irigLabel (d : Dev) (f : IrigFrame) : Int := d.irigUtc f + d.taiUtc
def irigDis (d : Dev) (f : IrigFrame) : Int := d.irigLabel f - rnd ((d.taiAt (f.edge / 16) : Rat) / 1000000000)
/-- A frame agrees with the valid frame before it: 1 s after it, and as far from TAI (R48). -/
def irigAgree (d : Dev) (f : IrigFrame) : Bool :=
  match d.locus.irigPrev with
  | some (p, _) => decide (d.irigLabel f = (p : Int) + 1) && decide (d.irigDis f = d.locus.disagree.getD 0)
  | none => false
/-- The leap information and the quality of an accepted frame (R39, R47, R53). -/
def irigInfo (d : Dev) (now : Nat) (f : IrigFrame) : Dev :=
  let d : Dev := match f.cf with
    | some c => d.leapFollow now c
    | none => d
  d.modLocus (fun l => { l with srcTq := (f.cf.map (·.tq)).getD 15 })
/-- Whole seconds from a valid frame (R48). A frame that disagrees alone with TAI gives nothing, and is counted once the
next one does not agree with it. DEDUCED [69]. -/
def irigSeconds (d : Dev) (now : Nat) (f : IrigFrame) : Dev :=
  let dis := d.irigDis f
  let agree := d.irigAgree f
  let label := d.irigLabel f
  let d := if d.locus.disagree.isSome && !agree then d.irigDiscard else d
  let d := if dis = 0 || agree then d.irigInfo now f else d
  let d := d.modLocus (fun l => { l with
    irigPrev := some (label.toNat, f.edge), irigTs := some now, secsValid := l.secsValid || agree
    disagree := if dis = 0 || agree then none else some dis })
  if dis ≠ 0 && agree then d.offsetStep now (dis * secNs) true else d
/-- IRIG_FRAME (R46 to R49). DEDUCED [69]: in FAULT a frame gives nothing and is not counted. -/
def doIrigFrame (d : Dev) (now : Nat) (f : IrigFrame) : Dev :=
  if decide (d.stage.rank = 0) || !(d.src = 2 || d.src = 3) || d.locus.st == .fault then d
  else if irigBad f || (d.src = 2 && d.irigFar f) then d.irigDiscard
  else
    let d := if d.src = 3 then d.timingEdge now f.edge else d
    (d.irigSeconds now f).retq now

/-- HOLDOVER (R45, R52). DEDUCED [18]: it is entered from LOCKED. -/
def doHoldover (d : Dev) (now : Nat) : Dev :=
  if d.locus.st == .locked && d.src != 4 && d.src != 0 then d.enterHoldover now (d.locus.lastEdge / 16) else d
/-- TIME_SET_TIMEOUT (R50). -/
def doTimeSetTimeout (d : Dev) (now : Nat) : Dev :=
  if d.locus.st == .locked && d.src = 4 then d.enterHoldover now (d.locus.setTs.getD now) else d

/-- CMD_TIME_SET's action in the mode in force (R50). In HOST a difference within STEP_THRESH is the servo's phase error.
DEDUCED [67]: in FREE E(t) counts from the execution; in FAULT the command ends R55's wait as well. -/
def timeSet (d : Dev) (now ref tai err : Nat) : Dev :=
  let dd : Int := sx 64 (ux 64 ((tai : Int) - (ref + d.locus.offset)))
  let d := d.modLocus (fun l => { l with secsValid := true, errNs := err, setTs := some now })
  if d.src = 0 then
    let d := (d.modLocus (fun l => { l with e0 := some (err, now), entryTq := 0, freeLost := false })).offsetStep now dd true
    if d.locus.st == .fault then d else d.locusGo now .free
  else if d.src = 4 then
    let near := decide (dd ≤ d.stepThresh ∧ -d.stepThresh ≤ dd)
    let d := if near then d else d.offsetStep now dd true
    if d.locus.st == .fault then d else ((d.locusGo now .locked).servo (if near then -dd else 0)).hostTrim
  else (d.offsetStep now (Config.nearAt 3 ((dd : Rat) / 1000000000) * secNs) true).retq now
/-- CMD_TIME_SET executes (R50). -/
def doTimeSet (d : Dev) (now : Nat) : Dev :=
  match d.nextCmd 0x03 with
  | none => d
  | some (n, s) =>
    let d := d.beginCmd n
    let ref := argLE s 0 8
    let err := argLE s 16 4
    if now < ref || ref + 1000000000 < now then d.endCmd now n stBadArg 8
    else if err = 0 || (d.src = 1 && 500000000 ≤ err) then d.endCmd now n stBadArg 24
    else if d.src = 2 || d.src = 3 then d.endCmd now n stRefState
    else (d.timeSet now ref (argLE s 8 8) err).endCmd now n stDone

/-- SRC changes: OFFSET and the applied trim stay, and Locus acquires afresh (R40); in HOST the trim moves to HOST_TRIM
(R51). DEDUCED [67]: FAULT stays, and an earlier time-set no longer counts. -/
def srcChanged (d : Dev) (now : Nat) : Dev :=
  let host : Int := clampI (-trimMax) trimMax (sx 32 (d.rd 3 0x48))
  let toHost := d.src = 4
  let d := d.modLocus (fun l => { l with
    target := if toHost then host else l.trim, row := 0, rej := [], recov := 0, irigPrev := none, disagree := none, e0 := none, slew := 0, freeLost := false })
  if d.locus.st == .fault then d else d.locusGo now (if d.src = 0 then .free else .acquire)

/-- LEAP_SECOND_START (R38). -/
def doLeapStart (d : Dev) : Dev :=
  if d.leapPend && !d.leapNeg then d.modLocus (fun l => { l with active := true }) else d
/-- LEAP_DONE (R38). DEDUCED [70]: PEND clears after a negative leap second too. -/
def doLeapDone (d : Dev) (now : Nat) : Dev :=
  if d.leapPend && (d.leapNeg || d.locus.active) then
    let t := (if d.leapNeg then d.taiUtc + 255 else d.taiUtc + 1) % 256
    (((d.wr 3 0x4C (putBits (setBit (d.rd 3 0x4C) 8 false) 7 0 t)).modLocus
      (fun l => { l with active := false, occurred := some now })).raise 3 4).noteTime now
  else d

/-- REFCLK_LOSS (R55). -/
def doRefclkLoss (d : Dev) (now : Nat) : Dev :=
  if !d.locus.refOk then d
  else (((d.modLocus (fun l => { l with refOk := false, freeLost := true })).locusGo now .fault).raise 3 7).latch now 8
/-- REFCLK_RETURN (R55). -/
def doRefclkReturn (d : Dev) (now : Nat) : Dev :=
  if d.locus.refOk then d
  else
    let d := d.modLocus (fun l => { l with
      refOk := true, row := 0, rej := [], recov := 0, irigPrev := none, disagree := none })
    d.locusGo now (if d.src = 0 then .free else .acquire)

end Dev

/-- One edge of REFCLK, or of the internal oscillator that stands in for it (R32, R34, R55). -/
def refclkEdge (s : State) : State :=
  if s.dev.boot.por then s
  else
    let d := if s.dev.belowRun && s.dev.locus.trim != s.dev.locus.target
      then s.dev.applyTrim s.now s.dev.locus.target else s.dev
    let sum : Int := (s.clk.frac.toNat : Int) + d.locus.trim
    { s with
      clk := { cnt := s.clk.cnt + BitVec.ofInt 64 (40 + sum / 4294967296), frac := BitVec.ofInt 32 sum }
      dev := d }

/-- CMD_TIME_SET (R50). -/
def execCmdTimeSet (s : State) : Host.Outcome State Fault Refusal := onDev s (fun t d => d.doTimeSet t)
/-- PPS_EDGE (R42). -/
def execPpsEdge (edge : Nat) (s : State) : Host.Outcome State Fault Refusal := onDev s (fun t d => d.doPpsEdge t edge)
/-- IRIG_FRAME (R46). -/
def execIrigFrame (f : IrigFrame) (s : State) : Host.Outcome State Fault Refusal := onDev s (fun t d => d.doIrigFrame t f)
/-- HOLDOVER (R45). -/
def execHoldover (s : State) : Host.Outcome State Fault Refusal := onDev s (fun t d => d.doHoldover t)
/-- TIME_SET_TIMEOUT (R50). -/
def execTimeSetTimeout (s : State) : Host.Outcome State Fault Refusal := onDev s (fun t d => d.doTimeSetTimeout t)
/-- TQ_CHG (R53). -/
def execTqChg (s : State) : Host.Outcome State Fault Refusal := onDev s (fun t d => d.retq t)
/-- LEAP_SECOND_START (R38). -/
def execLeapSecondStart (s : State) : Host.Outcome State Fault Refusal := onDev s (fun _ d => d.doLeapStart)
/-- LEAP_DONE (R38). -/
def execLeapDone (s : State) : Host.Outcome State Fault Refusal := onDev s (fun t d => d.doLeapDone t)
/-- LEAP_OCCURRED_END (R38). -/
def execLeapOccurredEnd (s : State) : Host.Outcome State Fault Refusal :=
  onDev s (fun _ d => d.modLocus (fun l => { l with occurred := none }))
/-- REFCLK_LOSS (R55). -/
def execRefclkLoss (s : State) : Host.Outcome State Fault Refusal := onDev s (fun t d => d.doRefclkLoss t)
/-- REFCLK_RETURN (R55). -/
def execRefclkReturn (s : State) : Host.Outcome State Fault Refusal := onDev s (fun t d => d.doRefclkReturn t)

end Sys2Proof.Machine
end

