-- ==== Sys2Proof/Machine/Phasor.lean ====
section
/-! DEFINITION. The phasor unit and the wavefront path (chapter 12): report instants, windows, validity, the frame
queue; the decimator, the detector, arrivals; and the measurement clock, which both Prism and the wavefront path
wait for. -/

namespace Sys2Proof.Machine

/-- PMU_TQ of a time-quality code (Table 2.5). -/
def pmuTq (q : Nat) : Nat := [1, 1, 1, 1, 2, 3, 4, 5, 6].getD q 7
/-- UNLOCK at an instant: whether Locus is LOCKED, and when it last left LOCKED (Table 2.5). -/
def unlockCode (st : LocusState) (left : Option Nat) (t : Nat) : Nat :=
  if st = .locked then 0
  else match left with
    | none => 3
    | some l => if t < l + 10000000000 then 0 else if t < l + 100000000000 then 1 else if t ≤ l + 1000000000000 then 2 else 3
/-- s_r of a report instant: the first instant whose OFFSET in force maps it there, however OFFSET has stepped since;
none where a step passed over it (R294, R299). -/
def repInstant (tai : Nat) : Nat → Option Nat → List (Nat × Nat) → Option Nat
  | off, until', steps =>
    let s := (tai + 2 ^ 64 - off) % 2 ^ 64
    let inTime := match until' with
      | some u => decide (s < u)
      | none => true
    match steps with
    | [] => if inTime then some s else none
    | (t, before) :: r =>
      match repInstant tai before (some t) r with
      | some s' => some s'
      | none => if inTime && decide (t ≤ s) then some s else none

namespace Dev

/-- The phasor class code handed to the estimators: F60 and CLASS. -/
def phClass (d : Dev) : Nat := b2n (d.flag 0x2A 0x20 2) + 2 * b2n (d.flag 0x2A 0x20 1)
/-- The length of the window in ns (R295). -/
def phWin (d : Dev) : Rat :=
  let f0 : Rat := if d.flag 0x2A 0x20 2 then 60 else 50
  if d.flag 0x2A 0x20 1 then 1000000000 * max (4 / f0) (2 / (d.phFs : Rat)) else 2000000000 / f0
/-- Consecutive instants, newest first, with none missing between them. -/
def noGap (per : Rat) : List Rat → Bool
  | a :: b :: r => decide (a - b < 3 / 2 * per) && noGap per (b :: r)
  | _ => true
/-- The output period and the outputs of a channel of the protection class that was RUNNING over the whole window, newest
first (R297). -/
def slotRun (d : Dev) (k : Nat) (lo hi : Rat) : Option (Rat × List POut) :=
  let c := d.chan k
  if c.st == .running && !d.chAux k && decide ((c.runAt : Rat) ≤ lo) then some (d.chPeriod k, c.pub)
  else (c.past.find? (fun r => r.prot && decide ((r.frm : Rat) ≤ lo ∧ hi ≤ r.to_))).map (fun r => (r.per, r.outs))
/-- The samples of a slot's window, their instants counted in ticks from its start, where the slot is valid
(R295 to R297). -/
def slotWin (d : Dev) (p : Nat) (sr : Nat) : Option (List (Nat × Int)) :=
  let r := d.rd 0x2A (0x40 + 4 * p)
  let lo : Rat := (sr : Rat) - d.phWin / 2
  let hi : Rat := (sr : Rat) + d.phWin / 2
  let (per, outs) := (d.slotRun (bits r 27 24) lo hi).getD (0, [])
  let line := outs.map (fun (o : POut) => ((o.stamp : Rat) / 16 - sx 16 (bits r 15 0), o.val))
  let inside := line.filter (fun (x : Rat × Int) => decide (lo ≤ x.1 ∧ x.1 ≤ hi))
  let covers := match line.head?, line.getLast? with
    | some a, some b => decide (hi < a.1 + per ∧ b.1 < lo + per)
    | _, _ => false
  if bit r 31 && decide (per ≤ 125000) && covers &&
      noGap per (inside.map (·.1)) then
    some (inside.map (fun (x : Rat × Int) => ((16 * (x.1 - lo)).floor.toNat, x.2)))
  else none

/-- The positive-sequence phasor of three phasors. -/
def posSeq (a b c : Int × Int) : Int × Int :=
  let h : Rat := Config.sqrtR 3 / 2
  let re : Rat := a.1 - ((b.1 + c.1 : Int) : Rat) / 2 - h * ((b.2 - c.2 : Int) : Rat)
  let im : Rat := a.2 - ((b.2 + c.2 : Int) : Rat) / 2 + h * ((b.1 - c.1 : Int) : Rat)
  (satI 32 (Config.roundAt 21 (re / 3)), satI 32 (Config.roundAt 21 (im / 3)))

/-- The frame of a report instant estimated at s_r (R296 to R299). -/
def phFrame (d : Dev) (tai sr : Nat) : PFrame :=
  let cls := d.phClass
  let win := (List.range 16).map (fun p => d.slotWin p sr)
  let en := (List.range 16).map (fun p => d.flag 0x2A (0x40 + 4 * p) 31)
  let ph := win.map (fun w => match w with
    | some l =>
      let x := Config.phasor cls tai l
      (satI 32 x.1, satI 32 x.2)
    | none => ((0, 0) : Int × Int))
  let grp := fun (g : Nat) =>
    let r := d.rd 0x2A (0x80 + 4 * g)
    (bit r 31, bits r 3 0, bits r 7 4, bits r 11 8)
  let wOf := fun (p : Nat) => (win.getD p none)
  let grpOk := fun (g : Nat) =>
    let (e, a, b, c) := grp g
    e && (wOf a).isSome && (wOf b).isSome && (wOf c).isSome
  let ps := (List.range 4).map (fun g =>
    let (_, a, b, c) := grp g
    if grpOk g then posSeq (ph.getD a (0, 0)) (ph.getD b (0, 0)) (ph.getD c (0, 0)) else ((0, 0) : Int × Int))
  let fs := d.rd 0x2A 0x28
  let fg := bits fs 1 0
  let src : Option (List (Nat × Int)) :=
    if bit fs 4 then
      let (_, a, b, c) := grp fg
      if decide (bits fs 3 0 < 4) && grpOk fg then some ((wOf a).getD [] ++ (wOf b).getD [] ++ (wOf c).getD []) else none
    else wOf (bits fs 3 0)
  let freq := match src with
    | some l => satI 32 (Config.freq cls l)
    | none => 0
  let rocof := match src with
    | some l => satI 32 (Config.rocof cls l)
    | none => 0
  let lim : Int := if d.flag 0x2A 0x20 1 then 5000000 else 2000000
  let err := src.isNone || (en.zip win).any (fun x => x.1 && x.2.isNone)
  let lo : Rat := (sr : Rat) - d.phWin / 2
  let hi : Rat := (sr : Rat) + d.phWin / 2
  let tstep := d.phasor.steps.any (fun (s : Nat × Nat) => decide (lo ≤ s.1 ∧ (s.1 : Rat) ≤ hi))
  let q := (d.phasor.hist.find? (fun (h : PSnap) => decide (h.t ≤ sr))).getD {}
  let flags := 2 ^ 31 + b2n err * 2 ^ 30 + b2n (q.st != .locked) * 2 ^ 29 + b2n tstep * 2 ^ 28 +
    b2n (decide (lim < freq ∨ freq < -lim)) * 2 ^ 27 + unlockCode q.st q.left sr * 2 ^ 25 + pmuTq q.tq * 2 ^ 22 +
    q.tq * 2 ^ 18 + b2n q.leap * 2 ^ 17 + b2n q.neg * 2 ^ 16 +
    ofBits ((List.range 16).filter (fun p => (wOf p).isSome))
  { tai := tai, flags := flags, freq := freq, rocof := rocof, ph := ph, ps := ps, sr := sr }

/-- PHASOR_FRAME (R294 to R300). -/
def doPhasorFrame (d : Dev) (sec k : Nat) : Dev :=
  let tai := d.repAt sec k
  let fresh := match d.phasor.lastTai with
    | some l => decide (l < tai)
    | none => true
  if !d.phasorOn || decide (d.phFs ≤ k) || !fresh then d
  else
    match repInstant tai d.locus.offset none d.phasor.steps with
    | none => d
    | some sr =>
      let f := d.phFrame tai sr
      let full := decide (16 ≤ d.phasor.queue.length)
      let turned := bit f.flags 30 && (match d.phasor.newest with
        | some o => !bit o.flags 30
        | none => false)
      let d := d.modPhasor (fun p => { p with
        queue := (if full then p.queue.tail else p.queue) ++ [f]
        newest := some f, lastTai := some tai, drop := if full then sat1 32 p.drop else p.drop })
      let d := d.raise 0x2A 0
      let d := if full then d.raise 0x2A 2 else d
      if turned then d.raise 0x2A 1 else d

/-- One channel of the wavefront decimator over four bits (R302): the sample, kept as 16 bits. -/
def waveCic (c : WChan) (bs : List Bool) : WChan × Int :=
  let (i1, i2, i3) := bs.foldl cicBit (c.i1, c.i2, c.i3)
  let c1 := i3 - c.p3
  let c2 := c1 - c.p1
  let y := (c2 - c.p2).toInt
  ({ c with i1 := i1, i2 := i2, i3 := i3, p3 := i3, p1 := c1, p2 := c2 }, if y = 64 then 0x7FFF else y * 512)
/-- The compared value of a mode (R304). -/
def waveVal (mode : Nat) (x : Int) : Int := if mode = 1 then x else if mode = 2 then -x else (x.natAbs : Int)
/-- The instant of a wavefront output in ticks (R302). -/
def waveAt (d : Dev) (c ts : Nat) : Rat :=
  if d.clkMode = 1 then 16 * d.clkPer * c - 72 * d.clkPer else ts - 9 / 2 * d.meanPer
/-- The stamp of an arrival in ticks: the instant of D_(n−1), half of DW samples before that of the output before, plus f
sixteenths of T_w (R304). -/
def arrStamp (d : Dev) (dw : Nat) (f : Int) : Nat :=
  let p : Rat := if d.clkMode = 1 then 16 * d.clkPer else d.meanPer
  (Config.roundAt 22 (d.wave.lastAt + p * (-2 * (dw : Rat) + (f : Rat) / 4))).toNat
/-- An arrival: log entry, event, trigger, FIFO (R305). -/
def arrival (d : Dev) (now k : Nat) (x : Int) (stamp : Nat) : Dev :=
  let d := d.logEntry { ts := stamp / 16, flags := stamp % 16 * 16 + 8, page := 0x2B, bit := 0, unit := k, arg := x }
  let d := (d.raise 0x2B 0).trigger now 4 k (stamp / 16) (stamp % 16)
  if d.wave.fifo.length < 64 then
    d.modWave (fun w => { w with fifo := w.fifo ++ [{ stamp := stamp, chan := k, d := x }] })
  else (d.modWave (fun w => { w with lost := sat1 32 w.lost })).raise 0x2B 2
/-- The detector of a channel at a new sample (R304, R305). -/
def waveDetect (d : Dev) (now k : Nat) : Dev :=
  let w := tget {} d.wave.chan k
  let r := d.rd 0x2B (0x100 + 4 * k)
  let dw := bits r 3 0 + 1
  match w.hist.head?, w.hist[dw]? with
  | some a, some b =>
    let x := a - b
    let v := waveVal (bits r 15 14) x
    let thr : Int := (bits r 31 16 : Nat)
    let upd := fun (d : Dev) (h : Nat) => d.modWave (fun q => { q with
      chan := tupd {} q.chan k (fun y => { y with prev := some v, hold := h }) })
    if 0 < w.hold then upd d (w.hold - 1)
    else match w.prev with
      | none => upd d 0
      | some p =>
        if d.flag 0x2B 0x28 k && decide (p < thr ∧ thr ≤ v) then
          let f := rnd (16 * ((thr - p : Int) : Rat) / ((v - p : Int) : Rat))
          (upd d (d.fld 0x2B (0x140 + 4 * k) 15 0)).arrival now k x (d.arrStamp dw f)
        else upd d 0
  | _, _ => d
/-- WAVE_OUTPUT (R302 to R305, R308, R313). -/
def doWave (d : Dev) (now c ts : Nat) (m : EdgeMean) (bs : List Nat) : Dev :=
  if !d.domOn 6 || !d.wave.running || c % 4 ≠ 0 || bs.length ≠ 4 then d
  else
    let one := fun (d : Dev) (k : Nat) =>
      let (w, x) := waveCic (tget {} d.wave.chan k) (bs.map (fun b => bit b k))
      let w := if 0 < d.wave.skip then w else { w with hist := x :: w.hist.take 16 }
      d.modWave (fun q => { q with chan := tset {} q.chan k w })
    let first := decide (0 < d.wave.skip)
    let d := (d.noteMean m).each (List.range 16) one
    let at_ := d.waveAt c ts
    let done := fun (d : Dev) => d.modWave (fun q => { q with lastAt := at_ })
    if first then done (d.modWave (fun q => { q with skip := q.skip - 1 }))
    else
      let t : Nat := (Config.roundAt 22 at_).toNat
      let map := onBits 16 (d.fld 0x2B 0x2C 15 0)
      let smp := map.flatMap (fun k => bytesLE 2 (ux 16 ((tget {} d.wave.chan k).hist.headD 0)))
      let d := if map.isEmpty then d else d.pushFrame 0 { t := t / 16, fine := t % 16, bytes := smp }
      done (d.each (List.range 16) (fun d k => d.waveDetect now k))

/-- The path starts: its first three outputs are discarded (R303). -/
def waveStart (d : Dev) : Dev :=
  d.modWave (fun w => { w with running := true, waitClk := false, skip := 3, chan := [] })
/-- The path stops. -/
def waveStop (d : Dev) : Dev := d.modWave (fun w => { w with running := false, waitClk := false })
/-- The clock is lost: the path waits and RUN stays 1 (R303). -/
def waveWait (d : Dev) : Dev :=
  if d.wave.running then (d.modWave (fun w => { w with running := false, waitClk := true })).raise 0x2B 1 else d
/-- The clock is there again. -/
def waveResume (d : Dev) : Dev := if d.wave.waitClk then d.waveStart else d

/-- CLOCK_ACQUIRED (R268). DEDUCED [20]: LOSS and RANGE read 0 again. -/
def doClkAcq (d : Dev) (now : Nat) (m : EdgeMean) : Dev :=
  if !d.domOn 5 || d.clkMode != 2 || d.prism.acq then d
  else
    ((d.modPrism (fun p => { p with acq := true, loss := false, range := false, pbar := m })).chansResume now).waveResume
/-- The acquisition ends (R268): by loss of the clock or by its range. -/
def doClkFault (d : Dev) (now : Nat) (isLoss : Bool) : Dev :=
  if !d.domOn 5 || d.clkMode != 2 then d
  else
    let d := if isLoss then (d.modPrism (fun p => { p with acq := false, loss := true })).raise 0x28 5
      else (d.modPrism (fun p => { p with acq := false, range := true })).raise 0x28 6
    (d.chansWait now).waveWait

end Dev

/-- PHASOR_FRAME (R294 to R300). -/
def execPhasorFrame (sec k : Nat) (s : State) : Host.Outcome State Fault Refusal :=
  onDev s (fun _ d => d.doPhasorFrame sec k)
/-- WAVE_OUTPUT (R302 to R305). -/
def execWaveOutput (c ts : Nat) (pbar : EdgeMean) (bits : List Nat) (s : State) : Host.Outcome State Fault Refusal :=
  onDev s (fun t d => d.doWave t c ts pbar bits)
/-- CLOCK_ACQUIRED (R268). -/
def execClockAcquired (pbar : EdgeMean) (s : State) : Host.Outcome State Fault Refusal :=
  onDev s (fun t d => d.doClkAcq t pbar)
/-- CLK_LOSS (R268, R283, R303). -/
def execClkLoss (s : State) : Host.Outcome State Fault Refusal := onDev s (fun t d => d.doClkFault t true)
/-- CLK_RANGE (R268, R283, R303). -/
def execClkRange (s : State) : Host.Outcome State Fault Refusal := onDev s (fun t d => d.doClkFault t false)

end Sys2Proof.Machine
end

