-- ==== Sys2Proof/Machine/Diag.lean ====
section
/-! DEFINITION. Load diagnostics (chapter 10): off-state runs with their injections and result codes, and the
evaluation of pilot-tone runs. -/

namespace Sys2Proof.Machine

/-- Step, position and direction of each injection (Table 10.2). -/
def osStep (i : Nat) : Nat := [1, 2, 2, 3, 3, 4, 5, 5, 6, 7, 7].getD i 0
def osPos (i : Nat) : Nat := [12, 0, 0, 2, 2, 4, 6, 6, 8, 10, 10].getD i 0
def osSink (i : Nat) : Bool := i == 2 || i == 4 || i == 7 || i == 10
/-- An injection that ends its step. -/
def osLast (i : Nat) : Bool := i == 0 || i == 2 || i == 4 || i == 5 || i == 7 || i == 8 || i == 10

/-- A complex number as its parts. -/
abbrev Cx := Rat × Rat
def cxSub (a b : Cx) : Cx := (a.1 - b.1, a.2 - b.2)
def cxAbs2 (a : Cx) : Rat := a.1 * a.1 + a.2 * a.2
def cxQuot (a b : Cx) : Cx :=
  ((a.1 * b.1 + a.2 * b.2) / cxAbs2 b, (a.2 * b.1 - a.1 * b.2) / cxAbs2 b)
def cxScale (r : Rat) (a : Cx) : Cx := (r * a.1, r * a.2)
def cxMean (l : List Cx) : Cx := (sumR (l.map (·.1)) / l.length, sumR (l.map (·.2)) / l.length)
/-- The tone component of a window's samples (R261). -/
def tonePart (freq : Nat) (t0 : Rat) (l : List PtSample) : Cx :=
  let n : Rat := l.length
  let mean := sumR (l.map (fun (x : PtSample) => x.v)) / n
  let arg := fun (x : PtSample) => 2 * Config.piR * freq * (x.t - t0) / 1000000000
  (2 / n * sumR (l.map (fun (x : PtSample) => (x.v - mean) * Config.cosR (arg x))),
    -(2 / n) * sumR (l.map (fun (x : PtSample) => (x.v - mean) * Config.sinR (arg x))))

namespace Dev

def modOs (d : Dev) (f : OsRun → OsRun) : Dev := d.modDiag (fun g => { g with os := f g.os })
/-- The links a set of masks selects (Table 10.1). -/
def osMask (s : Slot) : List Nat :=
  onBits 32 (argLE s 0 4) ++ (onBits 16 (argLE s 4 2)).map (32 + ·) ++ (onBits 4 (argLE s 6 1)).map (48 + ·)
/-- VDC_MAX is exceeded on a link: its DC link, or a leg's DC bus (R253). -/
def vdcHigh (d : Dev) (k : Nat) : Bool :=
  let v := (tget (0, 0) (d.lk k).samp (if isLeg k then 6 else 0)).1
  decide (((d.fld 0x35 0x30 15 0 : Nat) : Rat) < rawFs v (if isLeg k then d.bfs else d.vfs))
/-- The result code of step n of a link, and its writing (R257). -/
def osRes (d : Dev) (k n : Nat) : Nat := bits (tget 0 d.diag.res k) (4 * n - 1) (4 * n - 4)
def osSetRes (d : Dev) (k n code : Nat) : Dev :=
  let d := d.modDiag (fun g => { g with res := tupd 0 g.res k (fun w => putBits w (4 * n - 1) (4 * n - 4) code) })
  if 2 ≤ code && code ≤ 6 && !d.diag.os.anyFault then (d.modOs (fun o => { o with anyFault := true })).raise 0x35 3 else d
/-- Links with a fault result (R257). -/
def osFaults (d : Dev) : List Nat :=
  allUnits.filter (fun k => (List.range 7).any (fun n => decide (2 ≤ d.osRes k (n + 1) ∧ d.osRes k (n + 1) ≤ 6)))

/-- The class of a step from its readings (R256). -/
def osClass (d : Dev) (n : Nat) (vp vm : Int) : Nat :=
  let f := fun (o hi lo : Nat) => ((d.fld 0x35 o hi lo : Nat) : Int)
  let openV := f 0x24 31 16
  let ss := f 0x24 15 0
  let hi := f 0x28 31 16
  let lo := f 0x28 15 0
  let sg := f 0x2C 31 16
  let wnd := f 0x2C 15 0
  if n = 1 then (if openV ≤ vp then 4 else 1)
  else if n = 4 || n = 6 then (if openV ≤ vp then 5 else if vp ≤ wnd ∧ -wnd ≤ vp then 1 else 6)
  else if openV ≤ vp ∧ vm ≤ -openV then 4
  else if ss ≤ vp ∧ ss ≤ vm then 2
  else if vp ≤ sg ∧ -sg ≤ vp ∧ vm ≤ sg ∧ -sg ≤ vm then 3
  else if lo ≤ vp ∧ vp ≤ hi ∧ lo ≤ -vm ∧ -vm ≤ hi then 1
  else 6

/-- What step 7 reads where it may not run (R255): the leg links that are admitted decide. -/
def step7Bar (d : Dev) : Option Nat :=
  let adm := [48, 49, 50, 51].filter (fun u => d.linked u)
  if adm.isEmpty then some 0 else if adm.any d.vdcHigh then some 8 else none
/-- The next injection of a link is sent, or the link has none left in this phase (R254, R255). -/
def osKick (d : Dev) (k : Nat) : Dev :=
  let none' := fun (d : Dev) => d.modOs (fun o => { o with inj := tset 0 o.inj k 0, todo := tset [] o.todo k [] })
  match tget [] d.diag.os.todo k with
  | [] => none' d
  | i :: r =>
    match (if i = 9 then d.step7Bar else none) with
    | some c => none' (d.osSetRes k 7 c)
    | none =>
      let w := ctlWord 0x03 (osPos i * 4096 + b2n (osSink i) * 2048 + d.fld 0x35 0x20 10 8 * 256 + d.fld 0x35 0x20 7 0)
      (d.queueCtl k w).modOs (fun o => { o with inj := tset 0 o.inj k (i + 1), todo := tset [] o.todo k r })
/-- A cell begins steps 2 and 3. -/
def osSerial (d : Dev) (k : Nat) : Dev :=
  (d.modOs (fun o => { o with serial := o.serial.filter (· != k), todo := tset [] o.todo k [1, 2, 3, 4] })).osKick k
/-- The next cell of a string begins steps 2 and 3. -/
def osNextOf (d : Dev) (s : Nat) : Dev :=
  match d.diag.os.serial.find? (fun k => d.strOf k == some s) with
  | some k => d.osSerial k
  | none => d
/-- Whether no injection is under way; whether one is under way on a cell of a string. -/
def osQuiet (d : Dev) : Bool := d.diag.os.inj.isEmpty
def osBusy (d : Dev) (s : Nat) : Bool := d.diag.os.inj.any (fun p => d.strOf p.1 == some s)
/-- Steps 2 and 3 go on (R255): one cell of each enabled string at a time, by the strings as they now are; cells
outside every enabled string at once. -/
def osAdvance (d : Dev) : Dev :=
  let d := d.each d.strings (fun d s => if d.osBusy s then d else d.osNextOf s)
  d.each (d.diag.os.serial.filter (fun k => (d.strOf k).isNone)) osSerial
/-- The run enters its second phase, goes on in it, or ends (R253, R255). -/
def osCheck (d : Dev) (now : Nat) : Dev :=
  if !d.diag.os.running || !(d.diag.os.phase2 || d.osQuiet) then d
  else
    let d := (d.modOs (fun o => { o with phase2 := true })).osAdvance
    if d.osQuiet && d.diag.os.serial.isEmpty then
      (d.endCmd now d.diag.os.slot stDone).modOs (fun o => { o with running := false, todo := [], inj := [] })
    else d
/-- A link has gone on after an injection: the next one, or the next cell of its string. -/
def osCont (d : Dev) (now k : Nat) : Dev := (d.osKick k).osCheck now
/-- An injection of a link ends with a reading, or with none (R255, R256). -/
def osResult (d : Dev) (now k : Nat) (v : Option Int) : Dev :=
  let i' := tget 0 d.diag.os.inj k
  if !d.diag.os.running || i' = 0 then d
  else
    let i := i' - 1
    let n := osStep i
    let d := d.modDiag (fun g => { g with val := tset none g.val (16 * k + i) v })
    let d := match v with
      | none => if d.osRes k n = 0 then d.osSetRes k n 7 else d
      | some x =>
        if osLast i && d.osRes k n = 0 then
          let vp := if osSink i then (tget none d.diag.val (16 * k + i - 1)).getD 0 else x
          d.osSetRes k n (d.osClass n vp x)
        else d
    d.osCont now k
/-- A node refuses the TEST_INJ under way (R255): its step has no result; the next injection waits for the timeout. -/
def osReject (d : Dev) (k : Nat) : Dev :=
  let i' := tget 0 d.diag.os.inj k
  if !d.diag.os.running || i' = 0 || d.osRes k (osStep (i' - 1)) != 0 then d else d.osSetRes k (osStep (i' - 1)) 7
/-- The voltage checks of a housekeeping round (R255): the remaining steps of a link that fails read VDC_HIGH. -/
def osRound (d : Dev) (now : Nat) : Dev :=
  if !d.diag.os.running then d
  else
    let d := d.each d.diag.os.links (fun d k =>
      let o := d.diag.os
      let i := tget 0 o.inj k
      let left := (if i = 0 then [] else [i - 1]) ++ tget [] o.todo k ++
        (if o.serial.contains k then [1, 2, 3, 4] else [])
      if left.isEmpty || !d.vdcHigh k then d
      else
        (d.each left (fun d i => if d.osRes k (osStep i) = 0 then d.osSetRes k (osStep i) 8 else d)).modOs (fun o => { o with
          serial := o.serial.filter (· != k), inj := tset 0 o.inj k 0, todo := tset [] o.todo k [] }))
    d.osCheck now

/-- CMD_OFFSTATE_RUN executes (R253). -/
def doOffstate (d : Dev) (now : Nat) : Dev :=
  match d.nextCmd 0x09 with
  | none => d
  | some (n, s) =>
    let d := d.beginCmd n
    let l := osMask s
    let bad := fun (k : Nat) =>
      let c := bits (d.lk k).dsStatus 111 108
      (d.lk k).st != .standby || c == 2 || c == 3 || d.pre.any (fun p => p.left.contains k) || d.vdcHigh k
    if l.isEmpty then d.endCmd now n stBadArg 8
    else if !d.readyRun || !d.domOn 9 || l.any bad then d.endCmd now n stRefState
    else if d.diag.os.running then d.endCmd now n stBusy
    else
      let d := d.modDiag (fun g => { g with
        res := l.foldl (fun m k => tset 0 m k 0) g.res
        val := g.val.filter (fun p => !l.contains (p.1 / 16))
        os := { running := true, slot := n, handle := s.handle, links := l, serial := l.filter (fun k => decide (k < 48))
                todo := l.foldl (fun m k => tset [] m k (if isLeg k then [1, 2] else [0, 5, 6, 7, 8, 9, 10])) [] } })
      (d.each l osKick).osCheck now

/-- DAB period, and the response period of a pilot run in ns (R262). -/
def dabPer (d : Dev) (k : Nat) : Nat := d.fld (chordPage k) 0x38 19 0
def llkPer (d : Dev) (k : Nat) : Rat :=
  ((Nat.lcm (d.dabPer k) (d.fld (facetPage k) 0x24 12 8 * d.tc * 8) : Nat) : Rat) / 8
def mcI (d : Dev) : Nat := d.fld 0x35 0x6C 7 4
def mcV (d : Dev) : Nat := d.fld 0x35 0x6C 3 0
def respPer (d : Dev) (k mode : Nat) : Rat :=
  if mode = 1 || mode = 3 then d.llkPer k
  else if mode = 2 then d.tc
  else max (d.tc : Rat) (max (d.chPeriod d.mcI) (d.chPeriod d.mcV))
/-- CMD_PILOT_RUN executes (R259). -/
def doPilot (d : Dev) (now : Nat) : Dev :=
  match d.nextCmd 0x0A with
  | none => d
  | some (n, s) =>
    let d := d.beginCmd n
    let k := argLE s 0 1
    let mode := argLE s 1 1
    let amp := argLE s 2 2
    let f := argLE s 4 2
    let nc := argLE s 6 2
    let na := argLE s 8 1
    let f0 := if d.flag 0x35 0x60 8 then 60 else 50
    if 47 < k then d.endCmd now n stBadArg 8
    else if mode = 0 || 4 < mode then d.endCmd now n stBadArg 9
    else if amp = 0 || d.fld 0x35 0x64 15 0 < amp then d.endCmd now n stBadArg 10
    else if f < 200 || 5000 < f || f % f0 ≤ 10 || f0 ≤ f % f0 + 10 || decide (1000000000 < 4 * f * d.respPer k mode) then
      d.endCmd now n stBadArg 12
    else if nc < 16 || 4096 < nc then d.endCmd now n stBadArg 14
    else if na < 2 || 64 < na then d.endCmd now n stBadArg 16
    else if d.stage != .run || !d.domOn 9 || (d.vc k).role != .sharing || !d.flag 0x1E 0x400 0 ||
        ((mode == 1 || mode == 3) && d.dabPer k % (8 * d.tc) != 0) || (mode != 4 && d.wset k == 0) ||
        (mode == 4 && ((d.chan d.mcI).st.code == 0 || (d.chan d.mcV).st.code == 0)) then d.endCmd now n stRefState
    else if d.diag.pt.running then d.endCmd now n stBusy
    else d.modPt (fun _ => { running := true, slot := n, cell := k, mode := mode, amp := amp, freq := f, ncyc := nc, navg := na })

/-- A ratio of two tone components; a free value where the divisor is 0 [13]. -/
def toneRatio (d : Dev) (a b : Cx) : Cx × Dev :=
  if cxAbs2 b = 0 then
    let (x, d) := d.freeR
    let (y, d) := d.freeR
    ((x, y), d)
  else (cxQuot a b, d)
/-- PILOT_WINDOW_END: the window under way closes (R261, R262). -/
def doPtWindow (d : Dev) : Dev :=
  let r := d.diag.pt
  match r.t0 with
  | none => d
  | some t0 =>
    if !r.running || decide (r.navg < r.win) then d
    else
      let w := d.ptWindow
      let lo : Rat := t0 + r.win * w
      let hi : Rat := lo + w
      let inW := fun (l : List PtSample) => l.filter (fun (x : PtSample) => decide (lo ≤ x.t ∧ x.t < hi))
      let later := fun (l : List PtSample) => l.filter (fun (x : PtSample) => decide (hi ≤ x.t))
      let few := fun (l : List PtSample) (per : Rat) => decide (((inW l).length : Rat) * per < w * 7 / 8)
      let part := fun (sc : Rat) (l : List PtSample) => cxScale sc (tonePart r.freq t0 (inW l))
      let bad := r.badT.any (fun t => decide (lo ≤ t ∧ t < hi)) ||
        (if r.mode = 4 then few r.r1 d.tc || few r.r2 (d.chPeriod d.mcI) || few r.r3 (d.chPeriod d.mcV)
          else (r.mode != 2 && few r.r1 (d.llkPer r.cell)) || (r.mode != 1 && few r.r2 d.tc))
      let close := fun (d : Dev) => d.modPt (fun p => { p with
        win := p.win + 1, ex := later p.ex, r1 := later p.r1, r2 := later p.r2, r3 := later p.r3
        badT := p.badT.filter (fun t => decide (hi ≤ t)) })
      if r.win = 0 then close d
      else if bad then close (d.modPt (fun p => { p with discarded := p.discarded + 1 }))
      else if r.mode = 4 then
        let is := part ((d.ifs : Rat) / 131072) r.r1
        let ig := part (((d.fld 0x35 0x70 15 0 : Nat) : Rat) / 10 / 8388608) r.r2
        let vf := part (((d.fld 0x35 0x70 31 16 : Nat) : Rat) * 10 / 8388608) r.r3
        let (h, d) := d.toneRatio (cxSub is ig) vf
        close (d.modPt (fun p => { p with h4 := h :: p.h4 }))
      else
        let ex := part (Config.piR / 65536) r.ex
        let (h1, d) := d.toneRatio (part (((d.fld 0x35 0x68 31 16 : Nat) : Rat) / 131072) r.r1) ex
        let (h2, d) := d.toneRatio (part ((d.vfs : Rat) / 131072) r.r2) ex
        close (d.modPt (fun p => { p with
          h1 := if p.mode = 2 then p.h1 else h1 :: p.h1, h2 := if p.mode = 1 then p.h2 else h2 :: p.h2 }))

/-- The key of an estimate: quantity (0 LLK, 1 C, 2 ESR by cell, 3 C_f by string) and index. -/
def ptKey (q i : Nat) : Nat := q * 64 + i
/-- The offset of a baseline register. -/
def ptBase (q i : Nat) : Nat := [0x400, 0x4C0, 0x580, 0x640].getD q 0 + 4 * i
/-- The alarm of an estimate follows its trend and baseline (Table 10.6). -/
def ptAlarm (d : Dev) (q i : Nat) : Dev :=
  let key := ptKey q i
  let tr : Rat := ((tget 0 d.diag.trend key : Nat) : Rat) / 65536
  let b : Rat := (d.fld 0x35 (ptBase q i) 15 0 : Nat)
  let pc := fun (hi lo : Nat) => ((d.fld 0x35 0x74 hi lo : Nat) : Rat) / 100
  let dev := fun (x : Rat) => decide (x * b < tr - b ∨ x * b < b - tr)
  let on := decide (b ≠ 0) && decide (tr ≠ 0) &&
    (if q = 1 then decide (tr < (1 - pc 31 24) * b)
      else if q = 2 then decide ((1 + pc 23 16) * b < tr)
      else if q = 0 then dev (pc 15 8) else dev (pc 7 0))
  let was := tget false d.diag.alarm key
  let d := d.modDiag (fun g => { g with alarm := tset false g.alarm key on })
  if on && !was then d.raise 0x35 2 else d
/-- Every alarm is evaluated: the limits change, or the trends and baselines are loaded (R263). -/
def ptAlarms (d : Dev) : Dev :=
  (d.each (List.range 3) (fun d q => d.each (List.range 48) (fun d i => d.ptAlarm q i))).each (List.range 4) (fun d i => d.ptAlarm 3 i)
/-- A valid estimate is stored (R263). -/
def ptStore (d : Dev) (q i : Nat) (x : Rat) : Dev :=
  let v := Config.roundAt 19 x
  let (e, d) : Nat × Dev :=
    if 0 ≤ v ∧ v < 65536 then (v.toNat, d)
    else
      let (f, d) := d.drawFree
      (Config.freeNat f % 65536, d)
  let key := ptKey q i
  let d := if d.fld 0x35 (ptBase q i) 15 0 = 0 then (d.wr 0x35 (ptBase q i) e).raise 0x35 0 else d
  let old := tget 0 d.diag.trend key
  let tr := if old = 0 then e * 65536
    else ((old : Int) + Config.roundAt 18 ((((e * 65536 : Nat) : Rat) - old) / (2 ^ d.fld 0x35 0x60 3 0 : Nat))).toNat
  (d.modDiag (fun g => { g with est := tset 0 g.est key e, trend := tset 0 g.trend key tr })).ptAlarm q i
/-- QUAL squared of a set of ratios; none where every ratio equals their mean (R261). -/
def qual2 (l : List Cx) : Option Rat :=
  let m := cxMean l
  let v := sumR (l.map (fun h => cxAbs2 (cxSub h m))) / l.length
  if v = 0 then none else some (cxAbs2 m * l.length / v)
/-- QUAL in 1/16, saturating; a free value where no window was kept [13]. -/
def qual16 (d : Dev) (l : List Cx) : Nat × Dev :=
  if l.isEmpty then
    let (f, d) := d.drawFree
    (Config.freeNat f % 65536, d)
  else match qual2 l with
    | none => (65535, d)
    | some q => (min 65535 (Config.sqrtAt 17 (256 * q)).toNat, d)
/-- Enough windows are kept and QUAL reaches Q_MIN (R261). -/
def ptGood (d : Dev) (l : List Cx) : Bool :=
  decide ((d.diag.pt.navg + 1) / 2 ≤ l.length) && !l.isEmpty &&
    (match qual2 l with
      | none => true
      | some q => decide ((((d.fld 0x35 0x64 31 16) ^ 2 : Nat) : Rat) ≤ 256 * q))
/-- The DC-bus voltage over a run (R262). -/
def ptBus (d : Dev) : Rat × Dev :=
  if d.legs.isEmpty then (d.fld 0x34 0x34 31 16, d)
  else
    let (m, d) := d.meanR d.diag.pt.busSum d.diag.pt.busN
    (rawFs m d.bfs, d)
/-- PILOT_RUN_END: the estimates of the run (R261 to R263, Table 10.5). -/
def doPtEnd (d : Dev) (now : Nat) : Dev :=
  let r := d.diag.pt
  if !r.running then d
  else
    let w : Rat := 2 * Config.piR * r.freq
    let k := r.cell
    let fin := fun (d : Dev) (valid : List Nat) (want : List Nat) (qual : Nat) =>
      let d := d.modPt (fun p => { p with running := false, valid := ofBits valid, qual := qual, tone := 0 })
      let d := if want.all valid.contains then d else d.raise 0x35 1
      d.endCmd now r.slot stDone
    if r.mode = 4 then
      let h := cxMean r.h4
      let ok := d.ptGood r.h4 && decide (0 < h.2)
      let (q, d) := d.qual16 r.h4
      match d.strOf k with
      | some s =>
        let d := if ok then d.ptStore 3 s (h.2 / w * 100000000) else d
        fin d (if ok then [4] else []) [4] q
      | none => fin d [] [4] q
    else
      let set := d.coilSet (d.wset k)
      let (bus, d) := d.ptBus
      let v2 := set.n * bus
      let f : Rat := 8000000000 / d.dabPer k
      let h1 := cxMean r.h1
      let llk := v2 / (2 * Config.piR * f * Config.sqrtR (cxAbs2 h1))
      let near := decide (h1.1 < 0) &&
        decide (h1.2 * Config.cosR (Config.piR / 9) ≤ -h1.1 * Config.sinR (Config.piR / 9)) &&
        decide (-h1.2 * Config.cosR (Config.piR / 9) ≤ -h1.1 * Config.sinR (Config.piR / 9))
      let ok1 := r.mode != 2 && d.ptGood r.h1 && near
      let (q1, d) := if r.mode = 2 then (65535, d) else d.qual16 r.h1
      let (q2, d) := if r.mode = 1 then (65535, d) else d.qual16 r.h2
      let est := tget 0 d.diag.est (ptKey 0 k)
      let lk := if ok1 then llk else if est != 0 then (est : Rat) / 100000000 else set.llk
      let (dm, d) := d.meanR r.phSum r.phN
      let del := Config.piR / 65536 * (if dm < 0 then -dm else dm)
      let kk := v2 * (Config.piR - 2 * del) / (2 * Config.piR * Config.piR * f * lk)
      let (z', d) := d.toneRatio (cxMean r.h2) (kk, 0)
      let z := cxScale (-1) z'
      let okC := r.mode != 1 && d.ptGood r.h2 && decide (z.2 < 0)
      let okR := okC && decide (0 < z.1)
      let d := if ok1 then d.ptStore 0 k (llk * 100000000) else d
      let d := if okC then d.ptStore 1 k (-1 / (w * z.2) * 100000) else d
      let d := if okR then d.ptStore 2 k (z.1 * 100000) else d
      fin d ((if ok1 then [1] else []) ++ (if okC then [2] else []) ++ (if okR then [3] else []))
        ((if r.mode = 2 then [] else [1]) ++ (if r.mode = 1 then [] else [2, 3])) (min q1 q2)

end Dev

/-- CMD_OFFSTATE_RUN (R253). -/
def execCmdOffstateRun (s : State) : Host.Outcome State Fault Refusal := onDev s (fun t d => d.doOffstate t)
/-- CMD_PILOT_RUN (R259). -/
def execCmdPilotRun (s : State) : Host.Outcome State Fault Refusal := onDev s (fun t d => d.doPilot t)
/-- INJECTION_TIMEOUT (R255). -/
def execInjectionTimeout (k : Nat) (s : State) : Host.Outcome State Fault Refusal :=
  onDev s (fun t d => d.osResult t k none)
/-- TEST_RESULT (R254 to R256). -/
def execTestResult (k pos : Nat) (v : Int) (s : State) : Host.Outcome State Fault Refusal :=
  onDev s (fun t d => if osPos (tget 0 d.diag.os.inj k - 1) = pos then d.osResult t k (some v) else d)
/-- PILOT_WINDOW_END (R261). -/
def execPilotWindowEnd (s : State) : Host.Outcome State Fault Refusal := onDev s (fun _ d => d.doPtWindow)
/-- PILOT_RUN_END (R261 to R263). -/
def execPilotRunEnd (s : State) : Host.Outcome State Fault Refusal := onDev s (fun t d => d.doPtEnd t)

end Sys2Proof.Machine
end

