-- ==== Sys2Proof/Machine/Node.lean ====
section
/-! DEFINITION. What the cell and leg nodes report (chapters 03 and 04): samples, housekeeping words, node events
and their actions; and precharge. -/

namespace Sys2Proof.Machine
namespace Dev

/-- The instant of an event in ns: arrival less the upstream delay less 2 × AGE ns (R70). DESIGN CHOICE [84]: a
fraction of a nanosecond is dropped. -/
def evTs (d : Dev) (k age edge : Nat) : Nat := ((16 * (edge : Int) - d.upDelay k - 512 * age) / 256).toNat
/-- The DEV event bit that a code raises (Table 4.15), if one. -/
def evBit (code : Nat) : Option Nat :=
  if code = 2 then some 9 else if code = 6 then some 10 else if code = 4 then some 11
  else if code = 8 then some 12 else if code = 9 then some 13 else none
/-- Every node event is logged, shown in NODE_LAST, and raises the bit its code has (R120). -/
def nodeLog (d : Dev) (k code pos age edge : Nat) : Dev :=
  let word := 0x400000 + code % 64 * 65536 + pos % 16 * 4096 + age % 4096
  let d := d.updLink k (fun l => { l with lastCode := code, lastPos := pos })
  let d := d.logEntry {
    ts := d.evTs k age edge, flags := if age = 0xFFF then 4 else 0, page := 0, bit := (evBit code).getD 255
    detail := code, unit := k, sub := pos, arg := word }
  match evBit code with
  | some b => d.raise 0 b
  | none => d
/-- The event of a link that exists: logged, then acted on at its instant. -/
def onEvent (d : Dev) (k code pos age edge : Nat) (f : Dev → Nat → Dev) : Dev :=
  if 52 ≤ k then d else f (d.nodeLog k code pos age edge) (d.evTs k age edge)

/-- A WATCH cause of an in-service cell's health (R153, Table 6.2). -/
def watchCause (d : Dev) (k : Nat) : Dev := if d.inSvc k then d.updCell k (fun c => { c with cause := true }) else d

/-- The distance of two instants. -/
def dist (a b : Nat) : Nat := (a - b) + (b - a)
/-- An INTERLOCK report pairs with the nearest kept one less than 1 ms away, or is kept (R97).
DESIGN CHOICE [84]: of two as near, with the one kept first. -/
def doInterlock (d : Dev) (now k ts : Nat) : Dev :=
  let d := d.updLink k (fun l => { l with
    nIntlk := sat1 8 l.nIntlk, intlk := l.intlk.filter (fun t => decide (now ≤ t + 2000000)) })
  let near := ((d.lk k).intlk.filter (fun t => decide (dist t ts < 1000000))).foldl
    (fun (a : Option Nat) t => match a with
      | none => some t
      | some b => if dist t ts < dist b ts then some t else some b) none
  match near with
  | some t => (d.updLink k (fun l => { l with intlk := l.intlk.erase t })).nodeFault now k 2 ts
  | none => (d.updLink k (fun l => { l with intlk := l.intlk ++ [ts] })).watchCause k
/-- INTERLOCK_EXPIRY (R97). -/
def doIntlkExpiry (d : Dev) (now k : Nat) : Dev :=
  if 52 ≤ k then d else d.updLink k (fun l => { l with intlk := l.intlk.filter (fun t => decide (now ≤ t + 2000000)) })

/-- A bootstrap position (R135). -/
def bootPos (d : Dev) (k pos : Nat) : Bool := if isLeg k then pos == 0 else d.profC && (pos == 0 || pos == 2)
/-- A UVLO report (R108, R111, R135). -/
def doUvlo (d : Dev) (now k pos ts : Nat) : Dev :=
  let d := d.updLink k (fun l => { l with nUvlo := sat1 8 l.nUvlo })
  if d.bootPos k pos then
    let b := pos == 2
    let second := match (d.legOf k b).uvlo with
      | some (t0, he) => decide (t0 < ts) && (he == 0 || decide (16 * ts ≤ he + 16000000))
      | none => false
    if second then
      ((d.updLeg k b (fun g => { g with uvlo := none, force := false })).raise (chordPage k) 6).nodeFault now k 3 ts
    else d.updLeg k b (fun g => { g with uvlo := some (ts, 0), force := true })
  else d.nodeFault now k 3 ts
/-- A SUPPLY_LOW report: the cell is to leave (R108, R168). -/
def doSupplyLow (d : Dev) (k : Nat) : Dev :=
  if k < 48 && !d.profC then d.updCell k (fun c => { c with leave := true }) else d
/-- BYP_DONE: a withdrawal that is now complete is reported (R167). -/
def doBypDone (d : Dev) (k : Nat) : Dev :=
  if tget false d.hull.withdrawn k then
    (d.modHull (fun h => { h with withdrawn := tset false h.withdrawn k false })).raise 0x1E 2
  else d
/-- BYP_FAIL under Profile S exhausts the string (R111, R112). -/
def doBypFail (d : Dev) (now k ts : Nat) : Dev :=
  if isLeg k || d.profC then d
  else
    let d := d.faultDecide now k 9 ts
    match d.strOf k with
    | some s => d.exhaust now s
    | none => d.place now k .off

/-- Cells a precharge selects (Table 4.7). -/
def preMask (s : Slot) : List Nat := onBits 32 (argLE s 0 4) ++ (onBits 16 (argLE s 4 2)).map (32 + ·)
/-- The capacitor temperature of a cell is outside −25 to +70 °C, or stale (R114). -/
def capTempBad (d : Dev) (k : Nat) : Bool :=
  let s := d.sensor (21 + 3 * k)
  (d.lk k).bsStale || s.stale || (d.lk k).temps.isEmpty || decide (s.val < -200 ∨ 560 < s.val)
/-- CMD_PRECHARGE executes (R114). -/
def doPrecharge (d : Dev) (now : Nat) : Dev :=
  match d.nextCmd 0x08 with
  | none => d
  | some (n, s) =>
    let d := d.beginCmd n
    let cells := preMask s
    let target := argLE s 6 2 % 32768
    let ms := argLE s 8 2
    let lim := if d.profC then min (d.fld 0 0x64 15 0) (d.fld 0 0x68 15 0) else d.fld 0 0x64 15 0
    let out := cells.filter (fun k => (d.strOf k).isNone)
    if cells.isEmpty || out.any (fun k => decide (k < 32)) then d.endCmd now n stBadArg 8
    else if !out.isEmpty then d.endCmd now n stBadArg 12
    else if target = 0 || lim ≤ 2 * target then d.endCmd now n stBadArg 14
    else if ms = 0 || 60000 < ms then d.endCmd now n stBadArg 16
    else if !d.readyRun || cells.any (fun k => (d.lk k).st != .standby || d.holdOf k == .bypass) then
      d.endCmd now n stRefState
    else if s.early = 1 then d.endCmd now n stRefTemp
    else if d.pre.any (fun p => cells.any p.left.contains) then d.endCmd now n stBusy
    else
      let d := d.each cells (fun d k => d.queueCtl k (ctlWord 0x02 (32768 + target)))
      { d with pre := d.pre ++ [{ slot := n, cells := cells, left := cells, start := now, ms := ms }] }
/-- PRE_DONE (R114). -/
def doPreDone (d : Dev) (now k : Nat) : Dev :=
  d.pre.foldl (fun d p =>
    if p.left.contains k then
      let p' := { p with left := p.left.filter (· != k) }
      let d := { d with pre := d.pre.map (fun q => if q.slot = p.slot then p' else q) }
      if p'.left.isEmpty then d.preEnd now p' stDone else d
    else d) d
/-- PRE_FAIL: the node has stopped by itself (R114). -/
def doPreFail (d : Dev) (now k : Nat) : Dev :=
  d.pre.foldl (fun d p =>
    if p.cells.contains k then d.preEnd now { p with left := p.left.filter (· != k) } stHwFault else d) d
/-- PRECHARGE_TIMEOUT (R114). -/
def doPreTimeout (d : Dev) (now slot : Nat) : Dev :=
  match d.pre.find? (fun p => p.slot == slot) with
  | some p => d.preEnd now p stTimeout
  | none => d
/-- The temperature check of a housekeeping round during a precharge (R114). -/
def preRound (d : Dev) (now : Nat) : Dev :=
  d.pre.foldl (fun d p => if p.cells.any d.capTempBad then d.preEnd now p stRefTemp else d) d

/-- A sample is delivered: kept with its index, and given to the models and to a pilot run (R69, R101, R184). -/
def doSample (d : Dev) (k qty : Nat) (si : Bool) (v : Int) (m : Nat) : Dev :=
  if 52 ≤ k || 7 ≤ qty || si != (m % 2 == 1) then d
  else
    let none' : Int × Nat := (1048576, 0)
    let d := d.updLink k (fun l =>
      let prev := match l.samp.find? (fun p => p.1 == qty) with
        | some (_, x) => tset none' l.sampPrev qty x
        | none => l.sampPrev
      { l with samp := tset none' l.samp qty (v, m), sampPrev := prev })
    (d.modelSample k qty v).ptNode k qty v (d.tm m)

/-- A node with that position (Table 4.1). -/
def posOn (k pos : Nat) : Bool := decide (k < 52) && decide (pos < positions k)

end Dev

/-- SAMPLE (R69, R101). -/
def execSample (k qty : Nat) (si : Bool) (value : Int) (m : Nat) (s : State) : Host.Outcome State Fault Refusal :=
  onDev s (fun _ d => d.doSample k qty si value m)
/-- SWDLY_ON (Table 4.8). -/
def execSwdlyOn (k pos v : Nat) (s : State) : Host.Outcome State Fault Refusal :=
  onDev s (fun _ d => if Dev.posOn k pos then d.updLink k (fun l => { l with dlyOn := tset 0 l.dlyOn pos v }) else d)
/-- SWDLY_OFF (Table 4.8). -/
def execSwdlyOff (k pos v : Nat) (s : State) : Host.Outcome State Fault Refusal :=
  onDev s (fun _ d => if Dev.posOn k pos then d.updLink k (fun l => { l with dlyOff := tset 0 l.dlyOff pos v }) else d)
/-- SUPPLY_V (Table 4.8). -/
def execSupplyV (k pos v : Nat) (s : State) : Host.Outcome State Fault Refusal :=
  onDev s (fun _ d => if Dev.posOn k pos then d.updLink k (fun l => { l with supV := tset 0 l.supV pos v }) else d)
/-- CHOP_TIME (Table 4.8). -/
def execChopTime (k v : Nat) (s : State) : Host.Outcome State Fault Refusal :=
  onDev s (fun _ d => if k < 52 then d.updLink k (fun l => { l with chopT := v }) else d)
/-- BYP_STATE (R119). -/
def execBypState (k v : Nat) (s : State) : Host.Outcome State Fault Refusal :=
  onDev s (fun _ d => if k < 48 then d.updLink k (fun l => { l with byp := v % 4 }) else d)
/-- DESAT (R111, R112). -/
def execDesat (k pos age edge : Nat) (s : State) : Host.Outcome State Fault Refusal :=
  onDev s (fun t d => d.onEvent k 1 pos age edge (fun d ts =>
    (d.updLink k (fun l => { l with nDesat := sat1 8 l.nDesat })).nodeFault t k 1 ts))
/-- INTERLOCK (R96, R97). -/
def execInterlock (k pos age edge : Nat) (s : State) : Host.Outcome State Fault Refusal :=
  onDev s (fun t d => d.onEvent k 2 pos age edge (fun d ts => d.doInterlock t k ts))
/-- INTERLOCK_EXPIRY (R97). -/
def execInterlockExpiry (k : Nat) (s : State) : Host.Outcome State Fault Refusal :=
  onDev s (fun t d => d.doIntlkExpiry t k)
/-- UVLO (R108, R111, R135). -/
def execUvlo (k pos age edge : Nat) (s : State) : Host.Outcome State Fault Refusal :=
  onDev s (fun t d => d.onEvent k 3 pos age edge (fun d ts => d.doUvlo t k pos ts))
/-- SUPPLY_LOW (R108). -/
def execSupplyLow (k pos age edge : Nat) (s : State) : Host.Outcome State Fault Refusal :=
  onDev s (fun _ d => d.onEvent k 4 pos age edge (fun d _ => d.doSupplyLow k))
/-- DC_OV (R107, R111). -/
def execDcOv (k pos age edge : Nat) (s : State) : Host.Outcome State Fault Refusal :=
  onDev s (fun t d => d.onEvent k 5 pos age edge (fun d ts =>
    (d.updLink k (fun l => { l with nDcov := sat1 8 l.nDcov })).nodeFault t k 5 ts))
/-- CHOP (Table 4.4). -/
def execChop (k pos age edge : Nat) (s : State) : Host.Outcome State Fault Refusal :=
  onDev s (fun _ d => d.onEvent k 6 pos age edge (fun d _ => d))
/-- NODE_OT (R111). -/
def execNodeOt (k pos age edge : Nat) (s : State) : Host.Outcome State Fault Refusal :=
  onDev s (fun t d => d.onEvent k 7 pos age edge (fun d ts => d.nodeFault t k 7 ts))
/-- BYP_DONE (R104, R167). -/
def execBypDone (k pos age edge : Nat) (s : State) : Host.Outcome State Fault Refusal :=
  onDev s (fun _ d => d.onEvent k 8 pos age edge (fun d _ => d.doBypDone k))
/-- BYP_FAIL (R104, R112). -/
def execBypFail (k pos age edge : Nat) (s : State) : Host.Outcome State Fault Refusal :=
  onDev s (fun t d => d.onEvent k 9 pos age edge (fun d ts => d.doBypFail t k ts))
/-- PRE_DONE (R114). -/
def execPreDone (k pos age edge : Nat) (s : State) : Host.Outcome State Fault Refusal :=
  onDev s (fun t d => d.onEvent k 10 pos age edge (fun d _ => d.doPreDone t k))
/-- PRE_FAIL (R114). -/
def execPreFail (k pos age edge : Nat) (s : State) : Host.Outcome State Fault Refusal :=
  onDev s (fun t d => d.onEvent k 11 pos age edge (fun d _ => d.doPreFail t k))
/-- CMD_REJ (R99, R255). -/
def execCmdRej (k pos age edge : Nat) (s : State) : Host.Outcome State Fault Refusal :=
  onDev s (fun _ d => d.onEvent k 12 pos age edge (fun d _ =>
    ((d.updLink k (fun l => { l with nRej := sat1 16 l.nRej })).watchCause k).osReject k))
/-- TEST_DONE (R254): the result follows in housekeeping. -/
def execTestDone (k pos age edge : Nat) (s : State) : Host.Outcome State Fault Refusal :=
  onDev s (fun _ d => d.onEvent k 13 pos age edge (fun d _ => d))
/-- A code outside Table 4.4 (R111): logged and counted. -/
def execUnlistedCode (k code pos age edge : Nat) (s : State) : Host.Outcome State Fault Refusal :=
  onDev s (fun _ d =>
    if 1 ≤ code ∧ code ≤ 13 then d
    else d.onEvent k code pos age edge (fun d _ => d.updLink k (fun l => { l with nOther := sat1 16 l.nOther })))
/-- CMD_PRECHARGE (R114). -/
def execCmdPrecharge (s : State) : Host.Outcome State Fault Refusal := onDev s (fun t d => d.doPrecharge t)
/-- PRECHARGE_TIMEOUT (R114). -/
def execPrechargeTimeout (slot : Nat) (s : State) : Host.Outcome State Fault Refusal :=
  onDev s (fun t d => d.doPreTimeout t slot)

end Sys2Proof.Machine
end

