-- ==== Sys2Proof/Machine/Thermal.lean ====
section
/-! DEFINITION. The housekeeping round of chapter 14: supplies, sensors with their cross-checks, thresholds, throttles,
budgets, gates and sheds. Sensors are numbered 0 to 15 for the die, 16 to 19 for the NTC inputs, 20 + 3k + q for
quantity q of link k. -/

namespace Sys2Proof.Machine

/-- The class of a sensor (Table 14.2). -/
def sensClass (i : Nat) : Nat := if i < 16 then 0 else if i < 20 then 7 else (if i - 20 < 144 then 1 else 4) + (i - 20) % 3
/-- UNIT and SUB of a sensor's log entries. -/
def sensUnit (i : Nat) : Nat := if i < 16 then i else if i < 20 then i - 16 else (i - 20) / 3
def sensSub (i : Nat) : Nat := if i < 16 then 3 else if i < 20 then 4 else (i - 20) % 3
def allSens : List Nat := List.range 176

/-- One sensor at a round: its reading, whether it is stale and enabled, its group's readings, and the deviation from
M + o with M. -/
structure Reading where
  i : Nat
  r : Option Int
  stale : Bool
  on : Bool
  g : List Int
  m : Option Rat
  dev : Option Rat

namespace Dev

/-- A supply warning bit: set on a reading beyond its level, cleared 10 mV inside it (R347). -/
def supBit (was beyond inside : Bool) : Bool := if beyond then true else if inside then false else was
/-- The supplies, the references and the VCORE current at a round (R347, R348, R358). -/
def supRound (d : Dev) (h : HkData) : Dev :=
  let th := d.therm
  let bad := decide (100 < h.refDiff)
  let okN := if decide (h.refDiff ≤ 50) then th.refOk + 1 else 0
  let ref := bad || (th.refFault && decide (okN < 64))
  let lim := fun (r : Nat) => d.rd 4 (0x60 + 4 * r)
  let v := fun (r : Nat) => h.sup.getD r 0
  let uv := if ref then th.uv else ofBits ((List.range 6).filter (fun r =>
    supBit (bit th.uv r) (decide (v r < bits (lim r) 15 0)) (decide (bits (lim r) 15 0 + 10 ≤ v r))))
  let ov := if ref then th.ov else ofBits ((List.range 6).filter (fun r =>
    supBit (bit th.ov r) (decide (bits (lim r) 31 16 < v r)) (decide (v r + 10 ≤ bits (lim r) 31 16))))
  let newUv := (List.range 6).any (fun r => bit uv r && !bit th.uv r)
  let newOv := (List.range 6).any (fun r => bit ov r && !bit th.ov r)
  let cl := d.fld 4 0x2C 15 0
  let high := decide (cl < h.icore)
  let under := decide (16 * h.icore ≤ 15 * cl)
  let d := d.modTherm (fun t => { t with
    sup := h.sup, uv := uv, ov := ov, refFault := ref, refOk := if ref then okN else 0, icore := h.icore
    sbSup := if high then max 1 (t.sbSup - 4) else if under then min 64 (t.sbSup + 1) else t.sbSup
    icoreOver := high || (t.icoreOver && !under) })
  let d := if newUv then d.raise 4 0 else d
  let d := if newOv then d.raise 4 1 else d
  let d := if high && !th.icoreOver then d.raise 4 2 else d
  if ref && !th.refFault then d.raise 4 3 else d

/-- The neighbour group of a sensor (Table 14.2). -/
def sensGroup (d : Dev) (i : Nat) : List Nat :=
  if i < 16 then ((List.range 4).map (i / 4 * 4 + ·)).filter (· != i)
  else if i < 20 then (onBits 4 (d.fld 5 (0xF0 + 4 * (i - 16)) 7 4)).map (16 + ·)
  else
    let k := (i - 20) / 3
    let q := (i - 20) % 3
    let links := if isLeg k then d.legs.filter (· != k)
      else match d.strOf k with
        | some s => (d.strCells s).filter (fun j => j != k && decide (j ≤ k + 2) && decide (k ≤ j + 2))
        | none => []
    links.map (fun j => 20 + 3 * j + q)
/-- The corroborating sensor of a node sensor (Table 14.2). -/
def corrOf (i : Nat) : Option Nat :=
  if i < 20 then none else some (i - (i - 20) % 3 + (if (i - 20) % 3 = 0 then 1 else 0))
/-- A sensor was accepted at the end of the previous round. -/
def accepted (d : Dev) (i : Nat) : Bool :=
  let s := d.sensor i
  s.known && !s.suspect && !s.stale
/-- What a round reads of a sensor, from the slot of Table 14.1 (R345, R346). -/
def sensRead (d : Dev) (n : Nat) (h : HkData) (i : Nat) : Option Int × Bool × Bool :=
  if i < 16 then (some (h.die.getD i 0), false, true)
  else if i < 20 then
    let en := d.flag 5 (0xF0 + 4 * (i - 16)) 0
    (if en then some (h.ntc.getD (i - 16) 0) else none, false, en)
  else
    let k := (i - 20) / 3
    let l := d.lk k
    let slot : Nat := 4 * n * 1000000 + 15625 * i
    match l.temps.find? (fun t => decide (4 * t.1 < slot)) with
    | some (_, a, b, c) =>
      let stale := l.bsStale || l.st == .down || l.st == .lost
      (if stale then none else some (if (i - 20) % 3 = 0 then a else if (i - 20) % 3 = 1 then b else c), stale, true)
    | none => (none, true, true)
/-- The median M of a group, for a reading less its offset (R350). -/
def groupM (g : List Int) (x : Rat) : Option Rat :=
  match g with
  | [] => none
  | [_] => none
  | [a, b] =>
    let da := if (a : Rat) < x then x - a else a - x
    let db := if (b : Rat) < x then x - b else b - x
    some (if db < da || (decide (da = db) && Config.nearTie a b) then (b : Rat) else a)
  | _ => median (g.map (fun v => (v : Rat)))
/-- The first pass of a round over one sensor: its group and its deviation (R350). -/
def sensFirst (d : Dev) (raw : List (Option Int × Bool × Bool)) (i : Nat) : Reading :=
  let (r, stale, on) := raw.getD i (none, true, false)
  let g := (d.sensGroup i).filterMap (fun j =>
    if d.accepted j then (raw.getD j (none, true, false)).1 else none)
  let o := (d.sensor i).ofs
  let m := match r with
    | some v => groupM g ((v : Rat) - o)
    | none => none
  let dv := match r, m with
    | some v, some x => some ((v : Rat) - x - o)
    | _, _ => none
  { i := i, r := r, stale := stale, on := on, g := g, m := m, dev := dv }
/-- An absolute value. -/
def absR (x : Rat) : Rat := if x < 0 then -x else x
/-- A THERM event with its log entry; a release is only logged (R353, R354). -/
def thermEv (d : Dev) (now n i : Nat) (set : Bool) : Dev :=
  let d := if set then d.raise 5 n else d
  d.logEv now 5 n (sensUnit i) (b2n set) (sensSub i)
/-- A deviation is corroborated (R350). -/
def corroborated (d : Dev) (all : List Reading) (x : Reading) (dv lim : Rat) : Bool :=
  match corrOf x.i with
  | none => false
  | some j =>
    match all[j]? with
    | none => false
    | some y =>
      match y.dev with
      | none => false
      | some e => d.accepted j && decide (0 < e * dv) && decide (lim / 2 ≤ absR e)
/-- The second pass over one sensor: suspicion, recovery and the presented value (R350 to R352). -/
def sensCheck (now : Nat) (old : Dev) (all : List Reading) (d : Dev) (x : Reading) : Dev :=
  if !x.on then { d with therm := { d.therm with sens := tset {} d.therm.sens x.i {} } }
  else
    match x.r with
    | none => d.updSensor x.i (fun s => { s with stale := x.stale })
    | some v =>
      let s := old.sensor x.i
      let cfg := d.rd 5 0x30
      let lim : Rat := (4 * bits cfg 31 24 : Nat)
      let jump := s.known && decide ((4 * bits cfg 23 16 : Nat) < (v - s.raw).natAbs)
      let noRef := decide (x.i < 20) && d.therm.refFault
      let range := decide (v < -400 ∨ 1440 < v) || noRef
      let c0 := if range then 1 else if jump then 2 else 0
      let omax : Rat := (d.fld 5 0x34 31 16 : Nat)
      let (devN, ofs, corr, c1) := match x.dev with
        | none => (s.dev, s.ofs, false, 0)
        | some e =>
          if absR e ≤ lim then
            (0, if s.suspect then s.ofs else clampR (-omax) omax (s.ofs + e / (2 ^ d.fld 5 0x34 3 0 : Nat)), false, 0)
          else if old.corroborated all x e lim then (0, s.ofs, true, 0)
          else (min 255 (s.dev + 1), s.ofs, false, if bits cfg 15 8 ≤ s.dev + 1 then 3 else 0)
      let cause := if c1 = 3 then 3 else c0
      let clean := c0 = 0 && (match x.dev with
        | none => true
        | some e => decide (absR e ≤ lim / 2))
      let clr := if s.suspect then (if clean then s.clr + 1 else 0) else 0
      let becomes := !s.suspect && cause != 0
      let recovers := s.suspect && decide (bits cfg 7 0 ≤ clr)
      let sus := becomes || (s.suspect && !recovers)
      let (val, held) := if !sus then ((v : Rat), false)
        else match x.m with
          | some m => (m + ofs, false)
          | none => (if s.known then s.val else (v : Rat), true)
      let d := d.updSensor x.i (fun q => { q with
        raw := v, known := true, val := val, ofs := ofs, dev := devN, clr := if sus then clr else 0, suspect := sus
        cause := if !sus then 0 else if noRef then 1 else if becomes then cause else s.cause
        held := held, stale := false, nocheck := x.dev.isNone, corr := corr })
      if becomes then d.thermEv now 0 x.i true else if recovers then d.thermEv now 1 x.i true else d
/-- Alarms, rises and throttle of one sensor, from its presented value (R353 to R355). -/
def sensLevel (now n : Nat) (d : Dev) (i : Nat) : Dev :=
  let s := d.sensor i
  if !s.known then d
  else
    let c := sensClass i
    let lvl := d.rd 5 (0x60 + 8 * c)
    let hyst : Rat := (bits lvl 7 0 : Nat)
    let alm : Rat := (bits lvl 19 8 : Nat)
    let alarm := if s.alarm then decide (alm - hyst ≤ s.val) else decide (alm ≤ s.val)
    let win := d.fld 5 0x38 10 0
    let kept := if win = 0 || n % (win / 16) ≠ 0 then s.kept else (n, s.val) :: s.kept.take 31
    let base := kept.find? (fun p => decide (p.1 + win ≤ n))
    let lim : Rat := (d.fld 5 (0x64 + 8 * c) 15 0 : Nat)
    let rise := match base with
      | some (_, v) => lim != 0 && (if s.rise then decide (lim - hyst ≤ s.val - v) else decide (lim ≤ s.val - v))
      | none => false
    let x : Rat := (s.val - (bits lvl 31 20 : Nat)) / 8
    let slope : Rat := ((d.fld 5 0x28 31 16 : Nat) : Rat) / 65536
    let law := decide (1 ≤ c ∧ c ≤ 6) && !s.held && !s.stale
    let z := if law then lawZ slope (d.fld 5 0x28 15 0) s.z x else s.z
    let k := if law then lawK slope (((d.fld 5 0x2C 15 0 : Nat) : Rat) / 32768) z x else s.k
    let d := d.updSensor i (fun q => { q with alarm := alarm, kept := kept, rise := rise, z := z, k := k })
    let d := if alarm != s.alarm then d.thermEv now 3 i alarm else d
    if rise != s.rise then d.thermEv now 4 i rise else d
/-- The quantity of a link whose sensor sets its k_TH, the first of equals. DEDUCED [66]. -/
def kThBy (d : Dev) (k : Nat) : Nat :=
  let f := fun (q : Nat) => (d.sensor (20 + 3 * k + q)).k
  if f 0 ≤ f 1 && f 0 ≤ f 2 then 0 else if f 1 ≤ f 2 then 1 else 2
/-- A link whose k_TH falls below 1 (R355). -/
def throttleMark (now : Nat) (d : Dev) (k : Nat) : Dev :=
  let low := decide (d.kTh k < 1)
  let was := tget false d.therm.thr k
  let d := d.modTherm (fun t => { t with thr := tset false t.thr k low })
  if low && !was then d.raiseLog now 5 2 k 1 (d.kThBy k) else d

/-- The presented die values and the largest of them. -/
def dieVals (d : Dev) : List Rat := ((List.range 16).filter (fun i => (d.sensor i).known)).map (fun i => (d.sensor i).val)
def tDie (d : Dev) : Rat := d.dieVals.foldl max (d.dieVals.headD 0)
/-- The die throttle and the NVM gate (R357, R360). -/
def dieRound (d : Dev) (now : Nat) : Dev :=
  let x : Rat := (d.tDie - (d.fld 5 0x60 31 20 : Nat)) / 8
  let slope : Rat := ((d.fld 5 0x28 31 16 : Nat) : Rat) / 65536
  let z := lawZ slope (d.fld 5 0x28 15 0) d.therm.zDie x
  let k := lawK slope (1 / 64) z x
  let ok := d.dieVals.all (fun v => decide (0 ≤ v ∧ v ≤ 760))
  let was := d.therm.nvmOk
  let d := d.modTherm (fun t => { t with
    zDie := z, kDie := k, nvmOk := ok, sbTh := if d.flag 5 0x20 1 then max 1 (64 * k).floor.toNat else 64 })
  let d := if ok || d.nvm.writing.isNone then d else d.modNvm (fun v => { v with shut := true })
  if was && !ok then d.raiseLog now 5 5 else d
/-- A domain is shed (R359). -/
def shedRound (d : Dev) (now n : Nat) : Dev :=
  let gap := match d.therm.lastShed with
    | some r => decide (r + 1000 ≤ n)
    | none => true
  if !d.lat.floor || !d.domOn 2 || decide (d.tDie < (d.fld 5 0x48 11 0 : Nat)) || !gap then d
  else
    match [8, 7, 6].find? (fun pd => d.flag 5 0x44 pd && d.domOn pd && !bit d.pwr.trans pd) with
    | none => d
    | some pd =>
      let d := d.modTherm (fun t => { t with shed := setBit t.shed pd true, lastShed := some n })
      let d := if pd = 8 then
          let d := d.each (List.range 8) (fun d p => d.rxClose now p)
          d.modPwr (fun p => { p with fadeOff := d.rxAudible now })
        else d.abortDomain now pd
      (d.turnOff pd).raiseLog now 5 6 pd
/-- The sensors' part of a round: both passes, then the levels (R350 to R355). -/
def sensRound (d : Dev) (now n : Nat) (h : HkData) : Dev :=
  let raw := allSens.map (d.sensRead n h)
  let all := allSens.map (d.sensFirst raw)
  let old := d
  let d := all.foldl (sensCheck now old all) d
  let d := d.each allSens (sensLevel now n)
  (d.each allUnits (throttleMark now)).dieRound now

end Dev
end Sys2Proof.Machine
end

