-- ==== Sys2Proof/Machine/RegCheck.lean ====
section
/-! DEFINITION. What a register refuses: the reasons of Table 16.3 that apply to a write, from the access codes,
the ranges, the state of the owner and the relations that the chapters state (R6, R8, R9, R405, R452). -/

namespace Sys2Proof.Machine

/-- The reasons of Table 16.3. -/
def rNoReg : Nat := 1
def rAccess : Nat := 2
def rLocked : Nat := 3
def rRange : Nat := 4
def rState : Nat := 5
def rRelation : Nat := 6
def rContention : Nat := 7
def rPartial : Nat := 8
/-- A reason where a condition holds. -/
def whenR (c : Bool) (r : Nat) : List Nat := if c then [r] else []

/-- Codes that are RWX, and codes that are RWS (R9). -/
def Acc.x : Acc → Bool
  | .rwx => true
  | .rwxs => true
  | .wox => true
  | _ => false
def Acc.s : Acc → Bool
  | .rws => true
  | .rwxs => true
  | _ => false
/-- The code keeps no value for reading (Table 0.3). -/
def Acc.unkept : Acc → Bool
  | .wox => true
  | .w1c => true
  | .wo => true
  | _ => false
/-- The fields a write can change. -/
def Row.writable (r : Row) : List Fld := r.flds.filter (fun f => f.acc != .ro)
/-- The mask of a field. -/
def Fld.mask (f : Fld) : Nat := (2 ^ (f.hi + 1 - f.lo) - 1) * 2 ^ f.lo
/-- Bits of a word outside every named field (R6). -/
def Row.reserved (r : Row) (w : Nat) : Bool := (r.flds.foldl (fun v f => putBits v f.hi f.lo 0) w) != 0
/-- A field takes a value (Table 0.3). -/
def Fld.takes (f : Fld) (w : Nat) : Bool :=
  f.ok.isEmpty || f.ok.any (fun r => decide (r.1 ≤ bits w f.hi f.lo) && decide (bits w f.hi f.lo ≤ r.2))

/-- A selector of Table 7.1 is one the register accepts (R175). -/
def selOk (s : Nat) : Bool :=
  let t := bits s 15 12
  let i := bits s 11 0
  if t = 0 then i == 0
  else if t = 1 then decide (bits i 11 6 ≤ 51) && bits i 5 3 == 0 && decide (bits i 2 0 ≤ 6)
  else if t = 2 then bits i 11 10 == 0 && bits i 7 3 == 0 && decide (bits i 2 0 ≤ 6)
  else if t = 3 then bits i 11 4 == 0
  else if t = 4 || t = 6 then bits i 11 6 != 0
  else if t = 5 || t = 7 then bits i 11 6 != 0 && bits i 3 0 == 0
  else t == 8 && decide (i ≤ 2)
/-- A DIST selector is one the register accepts (Table 12.8). -/
def distOk (s : Nat) : Bool :=
  let t := bits s 15 12
  let i := bits s 11 0
  if t = 0 || t = 1 || t = 3 || t = 4 then selOk s
  else if t = 0xA || t = 0xC then decide (i ≤ 47)
  else t == 0xB && decide (i ≤ 51)
/-- A Spline source is one the register accepts (Table 8.10). -/
def splOk (w : Nat) : Bool :=
  let k := bits w 15 12
  let i := bits w 11 0
  if k = 0 then i == 0
  else if k = 1 then bits i 11 7 == 0 && bits i 3 1 == 0
  else if k = 2 then selOk (0x4000 + i)
  else if k = 3 then selOk (0x5000 + i)
  else bits i 11 4 == 0
/-- The half-bridge gap of R95 in both directions: 800 ticks or more. -/
def gapOk (dead : Nat) (a b : Int × Int) : Bool :=
  decide (800 ≤ (dead : Int) + a.1 - b.2) && decide (800 ≤ (dead : Int) + b.1 - a.2)
/-- ON and OFF of a TRIM word (Table 4.14). -/
def trimVal (w : Nat) : Int × Int := (sx 11 (bits w 26 16), sx 11 (bits w 10 0))

namespace Dev

/-- The context of a CTX page and index (Table 7.11). -/
def ctxAt (page j : Nat) : Nat := (page - 0x21) * 21 + j + 1
/-- TRIM of a unit's position. -/
def swTrim (d : Dev) (u p : Nat) : Int × Int := trimVal (d.rd (facetPage u) (0x800 + 0x40 * unitIdx u + 4 * p))
/-- The units of a CHORD or FACET page number x, 0 to 4. -/
def pageUnits (x : Nat) : List Nat := if x < 4 then (List.range 12).map (12 * x + ·) else (List.range 4).map (48 + ·)
/-- A dead time holds R95 at positions lo to hi − 1 of every unit of a page. -/
def deadOk (d : Dev) (x dead lo hi : Nat) : Bool :=
  (pageUnits x).all (fun u => ((List.range (min hi (positions u))).filter (fun p => decide (lo ≤ p) && p % 2 == 0)).all
    (fun p => gapOk dead (d.swTrim u p) (d.swTrim u (p + 1))))
/-- L of R91 stays within 1.5 words a frame on a page at a control period. -/
def loadOk (x cfg tc : Nat) : Bool :=
  let i := bits cfg 12 8
  let v := bits cfg 4 0
  let c := if x < 4 then 2 else 1
  decide (2560 * (c * i * v + v + i) ≤ 3 * tc * i * v)
/-- The SP7 receiver, SDCLK1 and SD15 as held by their second functions (Table 16.9, R420). -/
def sp7Held (d : Dev) : Bool := d.domOn 8 && d.rxEn 7
def toutHeld (d : Dev) : Bool := d.domOn 7 && d.flag 0x2C 0x2C 1
def tinHeld (d : Dev) : Bool := d.domOn 7 && d.flag 0x2C 0x2C 0
def irigHeld (d : Dev) : Bool := d.src == 2 || d.src == 3
def sdclk1Held (d : Dev) : Bool := d.domOn 5 && d.flag 0x28 0x28 1
def sd15Held (d : Dev) : Bool := d.domOn 5 && d.flag 0x28 0x28 0

/-- A Spline source or an enabled context reads a Prism output (Table 14.4). -/
def prismUsed (d : Dev) : Bool :=
  d.domOn 2 && allCtx.any (fun c => bits (d.cx c).splSrc 15 12 == 4 ||
    ((d.cx c).en && (List.range 8).any (fun i => bits (d.selOf c i) 15 12 == 3)))
/-- The turn-off of a domain is refused (Table 14.4). -/
def offRefused (d : Dev) (now pd : Nat) : Bool :=
  let run := d.stage == .run
  if pd ≤ 1 then true
  else if pd = 2 then run
  else if pd = 3 then run && bit d.domainsReq 0
  else if pd = 4 then run && bit d.domainsReq 1
  else if pd = 5 then
    (d.domOn 6 && d.flag 0x2B 0x20 0) || !(d.runningOp 0x11).isEmpty ||
      (d.diag.pt.running && d.diag.pt.mode == 4) || (run && d.prismUsed)
  else if pd = 7 then
    !(d.runningOp 0x18).isEmpty || !(d.runningOp 0x19).isEmpty ||
      (List.range 32).any (fun n => d.running n && (d.slot n).any (fun s =>
        (s.op == 0x10 && argLE s 3 1 == 1) || (s.op == 0x11 && argLE s 8 1 == 1)))
  else if pd = 8 then d.rxAudible now
  else if pd = 9 then
    (run && d.fld 0x34 0x20 2 0 != 0) || d.diag.os.running || d.diag.pt.running || !(d.runningOp 0x20).isEmpty
  else false

/-- The owner of a register's RWS fields is stopped (R8; the owners as the chapters name them). -/
def stopped (d : Dev) (h : Hit) (off : Nat) : Bool :=
  let p := h.page
  if p = 0 then (if off < 0x60 then d.stage == .aware || d.stage == .ready else d.belowRun)
  else if 0x10 ≤ p ∧ p ≤ 0x14 then
    if off = 0x24 then (pageUnits (p - 0x10)).all (fun u => (d.lk u).st != .active)
    else (d.lk (unitAt p h.i)).st != .active
  else if 0x18 ≤ p ∧ p ≤ 0x1C then
    if 0x60 ≤ off ∧ off < 0x80 then d.belowRun
    else (pageUnits (p - 0x18)).all (fun u => (d.lk u).st != .active)
  else if 0x21 ≤ p ∧ p ≤ 0x23 then !(d.cx (ctxAt p h.i)).en
  else if p = 0x28 then
    if off = 0x20 then (List.range 16).all (fun k => (d.chan k).st == .stopped) && !(d.domOn 6 && d.flag 0x2B 0x20 0)
    else (d.chan h.i).st == .stopped
  else if p = 0x2A then !d.flag 0x2A 0x20 0
  else if p = 0x2B then !d.flag 0x2B 0x20 0 && (off != 0x2C || !d.capEn)
  else if p = 0x2C then !d.flag 0x2C 0x20 0
  else if p = 0x30 then (if off % 0x40 < 0x20 then !d.rxEn h.i else !d.txEn h.i)
  else if p = 0x35 then (if off < 0x60 then !d.diag.os.running else !d.diag.pt.running)
  else d.belowRun

/-- DEV, HULL, PWR, HK, THERM and LOCUS (R19 to R21, R110, R363, R367, R374, R376 to R386, R39, R41, R51). -/
def checkCore (d : Dev) (now : Nat) (rq : Req) (h : Hit) (off w : Nat) : List Nat :=
  let p := h.page
  if p = 0 then
    whenR (decide (0x30 ≤ off ∧ off < 0x50) && !(d.stage == .aware || d.stage == .ready)) rState ++
    if off = 0x30 then
      let on := (List.range 4).filter (bit w)
      whenR (on.any (fun s => d.strCount s == 0)) rRelation ++
        whenR (bit w 8 && decide (16 < sumN (on.map d.strCount))) rRelation
    else if 0x40 ≤ off ∧ off < 0x50 then
      let s := h.i
      if bit w 31 then whenR (bits w 30 0 != 0) rRange ++ whenR (d.flag 0 0x30 s) rRelation
      else
        let first := bits w 5 0
        let n := bits w 12 8
        let others := (List.range 4).filter (fun t => t != s && d.strCount t != 0)
        let cells := sumN (((List.range 4).filter (fun t => d.flag 0 0x30 t)).map (fun t => if t = s then n else d.strCount t))
        whenR (n == 0 || decide (16 < n) || decide (48 < first + n) || decide (n ≤ bits w 19 16)) rRange ++
          whenR (others.any (fun t => decide (first < d.strFirst t + d.strCount t) && decide (d.strFirst t < first + n))) rRelation ++
          whenR (d.profC && decide (16 < cells)) rRelation
    else if off = 0x64 then whenR (decide (bits w 15 0 ≤ d.fld 0 0x68 31 16)) rRelation
    else if off = 0x68 then
      whenR (decide (bits w 31 16 ≤ bits w 15 0)) rRange ++ whenR (decide (d.fld 0 0x64 15 0 ≤ bits w 31 16)) rRelation
    else if off = 0x78 then
      whenR (w != 0xB007) rRange ++
        whenR (!(d.stage == .ready || d.stage == .halt) || d.hull.tsdLive) rState
    else []
  else if p = 1 then
    whenR (!bit w 0 || !bit w 1) rRange ++
      whenR (rq != .load && (List.range 10).any (fun n => bit w n != d.flag 1 0x20 n &&
        (bit d.pwr.trans n || (!bit w n && d.offRefused now n)))) rState
  else if p = 2 then
    if off = 0x20 then
      whenR ([3, 6, 11].any (fun n => !bit w (16 + n)) || [4, 5, 6, 7, 8].any (fun n => !bit w n)) rRange
    else if off = 0x28 then
      whenR ((bit w 6 && d.hull.safeN) || (bit w 8 && !d.locus.refOk) || (bit w 7 && d.stage == .cooldown)) rState
    else if off = 0x50 then whenR (bits w 9 8 == 0 || (bits w 9 8 == 3 && isLeg (bits w 7 0))) rRange
    else if off = 0x54 then whenR (bits w 7 0 != 255 && d.holdOf (bits w 7 0) == .none) rState
    else if off = 0x68 then whenR (d.flag 2 0x64 31 != (rq == .qspi)) rAccess
    else if off = 0x6C then whenR (rq != .qspi) rAccess
    else []
  else if p = 3 then
    if off = 0x20 then whenR ((bits w 2 0 == 2 || bits w 2 0 == 3) && d.sp7Held) rContention
    else if off = 0x4C then whenR d.locus.active rState
    else []
  else if p = 4 then
    if 0x60 ≤ off then whenR (decide (bits w 31 16 ≤ bits w 15 0)) rRange else []
  else if p = 5 then
    if off = 0x38 then whenR (w % 16 != 0) rRange
    else if 0x60 ≤ off ∧ off < 0xA0 ∧ off % 8 = 0 then whenR ((bits w 31 20 == 0) != (h.i == 7)) rRange
    else if 0xF0 ≤ off ∧ off < 0x100 then whenR (bit w (4 + h.i)) rRange
    else []
  else []

/-- FACET, CHORD and VERTEX (R89, R91, R95, R142, R154, R156, R159, R164, R167). -/
def checkDrive (d : Dev) (h : Hit) (off w : Nat) : List Nat :=
  let p := h.page
  if 0x10 ≤ p ∧ p ≤ 0x14 then
    let x := p - 0x10
    let u := unitAt p h.i
    if off = 0x24 then whenR (!loadOk x w d.tc) rRelation
    else if 0x40 ≤ off ∧ off < 0x200 then whenR (bit w 0 && (d.lk u).st != .standby) rState
    else if 0x800 ≤ off ∧ off < 0xB00 then
      let q := if h.j % 2 = 0 then h.j + 1 else h.j - 1
      let dead := d.fld (0x18 + x) (if h.j < 4 then 0x20 else 0x34) 16 0
      whenR (!gapOk dead (trimVal w) (d.swTrim u q)) rRelation
    else []
  else if 0x18 ≤ p ∧ p ≤ 0x1C then
    let x := p - 0x18
    if off = 0x20 then whenR (!d.deadOk x (bits w 16 0) 0 4) rRelation
    else if off = 0x34 then whenR (!d.deadOk x (bits w 16 0) 4 12) rRelation
    else []
  else if p = 0x1E then
    if off = 0x2C then whenR (decide (bits w 31 16 ≤ bits w 15 0)) rRange
    else if 0x80 ≤ off ∧ off < 0x100 then
      let s := h.i
      if off % 0x20 = 0 then whenR (decide (d.strUMax s < bits w 15 0)) rRelation
      else if off % 0x20 = 4 then whenR (bits w 3 0 != 0 && decide (d.strCount s ≤ bits w 3 0)) rRelation
      else if off % 0x20 = 8 then whenR (decide (bits w 31 16 ≤ bits w 15 0)) rRange
      else if off % 0x20 = 0xC then
        let set := onBits 16 w
        let was := d.rd p off
        let new := set.filter (fun i => !bit was i)
        let cells := (new.filter (fun i => decide (i < d.strCount s))).map (d.strFirst s + ·)
        let leaving := (d.strCells s).filter (fun k => d.inSvc k && ((d.vc k).role == .leaving || (d.vc k).health == .leaving))
        let gone := cells.filter (fun k => !leaving.contains k)
        whenR (set.any (fun i => decide (d.strCount s ≤ i))) rRelation ++
          whenR (cells.any (fun k => !d.inSvc k) ||
            (!cells.isEmpty && decide (((d.nSvcOf s : Nat) : Int) - gone.length - leaving.length < d.nMin s))) rState
      else []
    else []
  else []

/-- LATTICE, CTX and LCODE (R175, R181, R190 to R199, R200, R209, R215, R230). -/
def checkCtl (d : Dev) (rq : Req) (h : Hit) (off w : Nat) : List Nat :=
  let p := h.page
  if p = 0x20 then
    let c := d.fld 0x20 0x60 13 8
    if off = 0x20 then
      whenR (w % 5 != 0) rRange ++
        whenR (decide (w + 1100 < d.regLat) || !(d.admission w d.regLat d.regCap d.lat.arr none).ok ||
          (List.range 5).any (fun x => !loadOk x (d.rd (0x10 + x) 0x24) w)) rRelation
    else if off = 0x24 then
      whenR (w % 5 != 0) rRange ++
        whenR (decide (d.regTc + 1100 < w) || !(d.admission d.regTc w d.regCap d.lat.arr none).ok) rRelation
    else if off = 0x28 then whenR (!(d.admission d.regTc d.regLat w d.lat.arr none).ok) rRelation
    else if off = 0x64 then
      whenR (c == 0) rRelation ++
        whenR (c != 0 && (!((d.cx c).st == .idle || (d.cx c).st == .opened) || (d.cx c).load.isSome)) rState
    else if off = 0x6C then whenR (c == 0) rRelation ++ whenR (!splOk w) rRange
    else if off = 0x68 || off = 0x70 || off = 0x74 || off = 0x78 then whenR (c == 0) rRelation
    else []
  else if 0x21 ≤ p ∧ p ≤ 0x23 then
    let c := ctxAt p h.i
    let o := if off < 0x400 then (off - 0x40) % 0x20 else 0x400
    if o = 0 then
      let x := d.cx c
      let en := bit w 0
      if x.en && !en then whenR (!(x.st == .idle || x.st == .fault)) rState
      else
        whenR (en && !x.en && !d.enMay c) rRelation ++
          whenR (bits w 6 4 != 0 && !d.reqAllowed c (bits w 6 4) en) rState
    else if o = 4 then
      let t := bits w 13 8
      let hm := bits w 6 4
      whenR ((bits w 31 30 == 0 && bits w 26 24 != 0) ||
        (!bit w 15 && ((bit w 7 && t == 2) || (t == 3 && (hm == 0 || decide (6 < hm))) || (t != 3 && hm != 0)))) rRange
    else if o = 8 || o = 0xC || o = 0x10 || o = 0x14 then
      let big := fun (s : Nat) => bits s 15 12 == 1 && decide (51 < bits s 11 6 + d.ctxCfg c 19 16)
      whenR (!selOk (bits w 31 16) || !selOk (bits w 15 0)) rRange ++
        whenR (big (bits w 31 16) || big (bits w 15 0)) rRelation
    else []
  else if p = 0x24 && off = 0x24 then whenR (rq != .load && d.codeHeld (d.fld 0x24 0x20 13 0)) rState
  else []

/-- PRISM, PRESP, WAVE, CAPTURE and STREAM (R270, R278, R282, R292, R303, R307, R308, R312, R314, R319, R324,
R331, R339, R341). -/
def checkMeas (d : Dev) (h : Hit) (off w : Nat) : List Nat :=
  let p := h.page
  if p = 0x28 then
    if off = 0x28 then whenR ((bit w 1 && d.toutHeld) || (bit w 0 && d.tinHeld)) rContention
    else if 0x100 ≤ off ∧ off < 0x300 then
      if off % 0x20 = 0 then
        let k := h.i
        let go := bit w 0 && !d.flag p off 0
        let r := d.chResp k
        whenR (go && ((d.clkMode == 2 && !d.clkOk) ||
            (d.chAux k && (!(d.bankOf r).loaded || (tget none d.prism.loading r).isSome)))) rState ++
          whenR (go && (d.clkMode == 0 || (k == 15 && !d.flag p 0x28 0) ||
            decide (prismCap < d.demand + d.demand1 k))) rRelation
      else if off % 0x20 = 4 then whenR (bit w 20 && decide (7 < bits w 3 0)) rRange
      else []
    else if 0x300 ≤ off ∧ (off % 0x10) = 8 then
      whenR (bits w 31 16 == 0 || decide (0x7FFF < bits w 31 16)) rRange
    else []
  else if p = 0x29 && off = 0x100 then
    let bank := bit w 20
    let n := if bank then (d.bankOf (bits w 19 16)).taps else romN (bits w 19 16)
    whenR (bank && decide (7 < bits w 19 16)) rRange ++
      whenR (decide (n ≤ bits w 8 0)) (if bank then rRelation else rRange)
  else if p = 0x2A && off = 0x28 then whenR (bit w 4 && decide (3 < bits w 3 0)) rRange
  else if p = 0x2B then
    if off = 0x20 then
      let go := bit w 0 && !d.flag p off 0
      whenR (go && (!d.domOn 5 || (d.clkMode == 2 && !d.clkOk))) rState ++ whenR (go && d.clkMode == 0) rRelation
    else if off = 0x28 then whenR (bit w 15 && !d.sd15Held) rRelation
    else if off = 0x2C then whenR (decide (8 < ones 16 w)) rRange ++ whenR (bit w 15 && !d.sd15Held) rRelation
    else []
  else if p = 0x2C then
    if off = 0x20 then
      whenR (bit w 0 && !d.flag p off 0 && [0, 1, 3].any (fun i => d.partEn i && decide (d.slotsFor i < 2))) rRelation
    else if off = 0x2C then whenR ((bit w 1 && d.sdclk1Held) || (bit w 0 && d.sd15Held)) rContention
    else if 0x40 ≤ off ∧ off < 0x68 then
      let b := bits w 14 8
      let n := bits w 7 0
      whenR (decide (128 < b + n)) rRange ++
        whenR (bit w 31 && (List.range 5).any (fun i => i != h.i && d.partEn i &&
          (let b2 := d.fld p (0x40 + 8 * i) 14 8
           decide (b < b2 + d.fld p (0x40 + 8 * i) 7 0) && decide (b2 < b + n)))) rRelation
    else if off = 0xBC then
      whenR (!(([0, 1, 3] : List Nat).any (fun i => (d.ringOf i).recs.any (fun r => r.id == w && recLocked r)))) rState
    else if 0x100 ≤ off ∧ off < 0x400 then whenR (!distOk (bits w 31 16) || !distOk (bits w 15 0)) rRange
    else []
  else if p = 0x30 then
    if off = 0x20 || off = 0x24 || off = 0x28 then
      whenR (off != 0x24 && w % 16 != 0) rRange ++
        whenR ((List.range 8).any (fun n => d.rxCfg n 2 1 != 0)) rState
    else if off = 0x30 then whenR (w % 16 != 0) rRange ++ whenR (decide (d.fld p 0x28 23 0 ≤ w)) rRelation
    else if 0x100 ≤ off then
      let n := h.i
      if off % 0x40 = 0 then whenR (n == 7 && bit w 0 && !d.rxEn 7 && d.irigHeld) rContention
      else if off % 0x40 = 4 then whenR (decide ((10 * bits w 19 0 : Nat) < d.latBound (d.rxCfg n 11 8))) rRelation
      else if off % 0x40 = 0x34 then whenR (bit w 0 && !((d.port! n).txFall && d.txSrcOk n)) rState
      else []
    else []
  else []

/-- MODEL and DIAG (R236, R239, R245, R248, R256, R262). -/
def checkModel (d : Dev) (h : Hit) (off w : Nat) : List Nat :=
  let p := h.page
  if p = 0x34 then
    let low := fun (rth cth : Nat) => decide (rth * cth < 2)
    if off = 0x50 then whenR (decide (bits w 19 8 ≤ bits w 31 20)) rRange
    else if 0x60 ≤ off ∧ off < 0x80 then
      let n := bits w 10 8
      whenR (n != 0 && d.rd p (0x80 + 0x20 * (n - 1)) == 0) rRelation
    else if 0x80 ≤ off ∧ off < 0x100 then
      let b := 0x80 + 0x20 * h.i
      let o := off - b
      let rth := if o = 8 then w else d.rd p (b + 8)
      let cth := if o = 0xC then w else d.rd p (b + 0xC)
      if o = 8 || o = 0xC then
        whenR (rth != 0 && cth != 0 && (low (bits rth 31 16) (bits cth 31 16) || low (bits rth 31 16) (bits cth 15 0) ||
          low (bits rth 15 0) (bits cth 15 0))) rRelation
      else if o = 0x10 then whenR (decide (bits w 19 8 ≤ bits w 31 20)) rRange
      else []
    else if 0x100 ≤ off ∧ off < 0x400 then
      let n := bits w 14 12
      let b := 0x80 + 0x20 * (n - 1)
      whenR (n != 0 && (d.rd p b == 0 || d.fld p (b + 0x14) 31 16 == 0 || d.fld p (b + 0x14) 15 0 == 0)) rRelation
    else []
  else if p = 0x35 then
    if off = 0x24 || off = 0x28 || off = 0x2C then
      let a := if off = 0x24 then w else d.rd p 0x24
      let b := if off = 0x28 then w else d.rd p 0x28
      let c := if off = 0x2C then w else d.rd p 0x2C
      let sg := bits c 31 16
      let lo := bits b 15 0
      let hi := bits b 31 16
      let ss := bits a 15 0
      let op := bits a 31 16
      whenR (!(decide (sg < lo) && decide (lo < hi) && decide (hi < ss) && decide (ss < op) && decide (bits c 15 0 < op))) rRelation
    else if off = 0x6C then whenR (bits w 7 4 == bits w 3 0) rRange
    else []
  else []

/-- A write over QSPI is one that R395 allows. -/
def qspiOk (page off : Nat) : Bool := page == 2 && (off == 0x50 || off == 0x58 || off == 0x68 || off == 0x6C)
/-- The stage takes a write to a page (Table 15.1). -/
def stageTakes (d : Dev) (page off : Nat) : Bool :=
  let hull := page == 2 && (off == 0x50 || off == 0x58 || off == 0x6C)
  match d.stage with
  | .reset => false
  | .safe => hull
  | .aware => hull || d.boot.loaded
  | .ready => true
  | .run => true
  | .cooldown => page == 0 || page == 2
  | .halt => page == 2 || (page == 0 && off == 0x78)
/-- A page takes writes: its domain is on and it is READY, which the NVM load does not wait for (R370, R405). -/
def pageTakes (d : Dev) (rq : Req) (page : Nat) : Bool := d.pageOn page && ((d.pg page).ready || rq == .load)
/-- The common registers of a page that can be written (Table 16.1). -/
def commonOff (off : Nat) : Bool := decide (off < 0x20) && off % 4 == 0
def commonRo (off : Nat) : Bool := off == 0 || off == 4 || off == 0xC || off == 0x10

/-- The value a register holds after an accepted write (R9): RO, RWX fields while locked and RWS fields while
the owner runs keep theirs, WO fields keep nothing. -/
def merged (d : Dev) (rq : Req) (h : Hit) (off w : Nat) : Nat :=
  let old := d.rd h.page off
  let lock := rq != .load && !(d.pg h.page).unlocked
  let stop := rq == .load || d.stopped h off
  h.row.flds.foldl (fun v f =>
    let keep := f.acc == .ro || (f.acc.x && lock) || (f.acc.s && !stop)
    if f.acc.unkept then putBits v f.hi f.lo 0 else if keep then v else putBits v f.hi f.lo (bits w f.hi f.lo)) old
/-- The reasons of R9 and Table 0.3 from the access codes, and RANGE from the fields (R6). The NVM load is bound by no
lock and no owner (R10, R405, R425). -/
def checkAccess (d : Dev) (rq : Req) (h : Hit) (off w : Nat) : List Nat :=
  let ws := h.row.writable
  let old := d.rd h.page off
  let lock := rq != .load && !(d.pg h.page).unlocked
  let diff := ws.any (fun f => f.acc.s && !(f.acc.x && lock) && bits w f.hi f.lo != bits old f.hi f.lo)
  whenR ws.isEmpty rAccess ++
    whenR (lock && ((!ws.isEmpty && ws.all (fun f => f.acc.x)) || ws.any (fun f => f.acc.x && bits w f.hi f.lo != 0))) rLocked ++
    whenR (h.row.reserved w || ws.any (fun f => !f.takes w)) rRange ++
    whenR (rq != .load && ws.any (fun f => f.acc.s) && !d.stopped h off && (ws.all (fun f => f.acc.s) || diff)) rState
/-- The reasons that apply to a whole write of a page's common register (R6, R403, R424). -/
def checkCommon (page off w : Nat) : List Nat :=
  if commonRo off then [rAccess]
  else if off = 8 then whenR (w != bits w 12 8 * 256 + bits w 1 0) rRange
  else if off = 0x1C then whenR (w != 0xE5A7 && w != 0) rRange
  else whenR ((w &&& evtBits page) != w) rRange
/-- Every reason that applies to a write (R452). -/
def reasons (d : Dev) (now : Nat) (rq : Req) (page off w : Nat) (whole : Bool) : List Nat :=
  if !d.pageTakes rq page then [rNoReg]
  else
    let q := whenR (rq == .qspi && !qspiOk page off) rAccess
    if commonOff off then
      if whole then q ++ checkCommon page off w ++ whenR (rq != .load && !d.stageTakes page off) rState
      else q ++ whenR (commonRo off) rAccess ++ [rPartial]
    else
      match findReg page off with
      | none => [rNoReg]
      | some h =>
        if whole then
          q ++ d.checkAccess rq h off w ++ whenR (rq != .load && !d.stageTakes page off) rState ++
            d.checkCore now rq h off w ++ d.checkDrive h off w ++ d.checkCtl rq h off w ++ d.checkMeas h off w ++ d.checkModel h off w
        else
          let ws := h.row.writable
          let kick := page == 2 && ((off == 0x68 && d.flag 2 0x64 31 != (rq == .qspi)) || (off == 0x6C && rq != .qspi))
          q ++ whenR (ws.isEmpty || kick) rAccess ++
            whenR (rq != .load && !(d.pg page).unlocked && !ws.isEmpty && ws.all (fun f => f.acc.x)) rLocked ++ [rPartial]
/-- The reason reported: the lowest that applies; none where the write is accepted (R452). -/
def refusal (d : Dev) (now : Nat) (rq : Req) (page off w : Nat) (whole : Bool) : Option Nat :=
  (d.reasons now rq page off w whole).foldl (fun a r => match a with
    | none => some r
    | some x => some (min x r)) none

end Dev
end Sys2Proof.Machine
end

