-- ==== Sys2Proof/Machine/RegEffect.lean ====
section
/-! DEFINITION. What an accepted register write does: the common registers of a page, and the effect of every
register that acts beyond holding its value. -/

namespace Sys2Proof.Machine
namespace Dev

/-- EVT_MASK takes a value; a pending bit that appears sends the page's message (R416, R417). -/
def maskWrite (d : Dev) (page w : Nat) : Dev :=
  let was := d.pend page
  let d := d.updPage page (fun q => { q with mask := w })
  if (List.range 32).any (fun n => bit (d.pend page) n && !bit was n) then d.pageMsix page else d
/-- Bits of EVT_RAW clear; a message follows where EVT_PEND stays non-zero (R416, R417). -/
def pendWrite (d : Dev) (page w : Nat) : Dev :=
  let d := d.updPage page (fun q => { q with raw := ofBits ((onBits 32 q.raw).filter (fun n => !bit w n)) })
  if d.pend page != 0 then d.pageMsix page else d
/-- An accepted write of a common register (Table 16.1). -/
def commonWrite (d : Dev) (page off w : Nat) : Dev :=
  if off = 8 then d.updPage page (fun q => { q with ctrl := w32 w })
  else if off = 0x14 then d.maskWrite page w
  else if off = 0x18 then d.pendWrite page w
  else if off = 0x1C then d.updPage page (fun q => { q with unlocked := w == 0xE5A7 })
  else d

/-- One step down of a unit's hold (R377), to no less than what a fault decided in this block (R394); a disarm state that
then comes into force is Hull's act on the unit (R253, R393). -/
def clearHold (now : Nat) (d : Dev) (u : Nat) : Dev :=
  let was := d.effective u
  let h := d.holdOf u
  let next := maxHold (if h == .bypass then .off else .none) (d.freshHold now u)
  if next == h then d else
  let d := d.modHull (fun x => { x with hold := tset Hold.none x.hold u next, withdrawn := tset false x.withdrawn u false })
  let e := d.effective u
  if e != .none && (h == .bypass || e != was) then (d.diagHit now u e).sendSafe u e else d
/-- HULL:CLR (R377). -/
def clearHolds (d : Dev) (now unit : Nat) : Dev :=
  if unit = 255 then d.each (allUnits.filter (fun u => d.holdOf u != .none)) (clearHold now) else clearHold now d unit
/-- HULL:FORCE: the causes in ascending order (R378). -/
def forceWrite (d : Dev) (now w : Nat) : Dev :=
  let d := if bit w 0 then d.latch now 10 else d
  if bit w 1 then d.latch now 11 else d
/-- PWR:REQ: off in descending, on in ascending order (R363). -/
def pwrWrite (d : Dev) (w : Nat) : Dev :=
  let d := d.each (((List.range 10).reverse).filter (fun n => !bit w n)) (fun d n => if d.flag 1 0x20 n then d.turnOff n else d)
  d.each ((List.range 10).filter (bit w)) (fun d n => (d.wr 1 0x20 (setBit (d.rd 1 0x20) n true)).turnOn n)
/-- LINK_CTRL.REALIGN in STANDBY (R89). -/
def realignLink (d : Dev) (now k : Nat) : Dev :=
  (((d.linkIdle now k .down).queueMsg k 0x7 0).updLink k (fun l => { l with
    delay := 0, echoes := [], nEcho := 0, rejRun := [] })).arrUpdate
/-- LEAP: the leap bits follow IRIG-B in its modes; PEND setting raises its event (R39). -/
def leapWrite (d : Dev) (now old w : Nat) : Dev :=
  let irig := d.src == 2 || d.src == 3
  let v := if irig then putBits w 9 8 (bits old 9 8) else w
  let d := d.wr 3 0x4C (putBits v 11 10 0)
  let d := if bit v 8 && !bit old 8 then d.raise 3 3 else d
  d.noteTime now
/-- HOST_TRIM takes effect in HOST (R51). DEDUCED [67]: in HOLDOVER too. -/
def hostTrimWrite (d : Dev) : Dev := if d.src = 4 then d.hostTrim else d
/-- The links whose node configuration a register shapes get what changed (R98, R100). -/
def syncAll (d : Dev) (l : List Nat) : Dev := d.each l syncCfg

/-- An accepted PERIOD (R181). -/
def periodEffect (d : Dev) (now w : Nat) : Dev :=
  let t := (now + d.lat.tc + w - 1) / w * w
  ((d.modLat (fun l => { l with tcNext := some (w, t) })).syncAll allUnits).rxLatCheck now
/-- An accepted LOOP_LAT (R181). -/
def loopLatEffect (d : Dev) (now w : Nat) : Dev :=
  let tc := d.lat.tc
  d.modLat (fun l => { l with latNext := some (w, (now + tc + tc - 1) / tc * tc) })
/-- CSEL.K moves on (R215). -/
def cselNext (d : Dev) : Dev := d.wrFld 0x20 0x60 5 0 ((d.fld 0x20 0x60 5 0 + 1) % 64)
/-- An accepted CDATA write is staged for the selected context (R215). -/
def cdataEffect (d : Dev) (w : Nat) : Dev :=
  (d.updCtx (d.fld 0x20 0x60 13 8) (fun x => { x with staged := x.staged ++ [(d.fld 0x20 0x60 5 0, sx 16 w)] })).cselNext
/-- MAN of the selected context: its elements track it (R211). -/
def manEffect (d : Dev) (c w : Nat) : Dev :=
  (d.updCtx c (fun x => { x with man := sx 16 w })).each (List.range 16) (fun d e => d.updElem c e (fun q => { q with track := true }))
/-- TGT of the selected context (R225). -/
def tgtEffect (d : Dev) (c w : Nat) : Dev :=
  let e := bits w 19 16
  (d.updCtx c (fun x => { x with tgtElem := e })).each (if bit w 31 then List.range 16 else [e])
    (fun d e => d.updElem c e (fun q => { q with tgt := sx 16 w }))
/-- CTX_x:CTRL: EN, then the request (R191, R198, R209). -/
def ctxCtrl (d : Dev) (c w : Nat) : Dev :=
  let x := d.cx c
  let en := bit w 0
  if x.en && !en then d.ctxDisable c
  else
    let d := if en && !x.en then d.ctxEnable c else d
    if bits w 6 4 != 0 then d.updCtx c (fun x => { x with req := bits w 6 4 }) else d
/-- LCODE:DATA: the word at ADDR, which moves on (R200). -/
def lcodeNext (d : Dev) : Dev := d.wrFld 0x24 0x20 13 0 ((d.fld 0x24 0x20 13 0 + 1) % 16384)
def lcodeEffect (d : Dev) (w : Nat) : Dev :=
  (d.modLat (fun l => { l with code := tset 0 l.code (d.fld 0x24 0x20 13 0) (w32 w) })).lcodeNext

/-- A threshold's registers change: its count restarts; MODE 0 deasserts it (R291). -/
def thrWrite (off3 : Bool) (t : Thr) : Thr := if off3 then {} else { t with cnt := 0 }
/-- PRISM registers (R268, R282, R283, R291). -/
def prismEffect (d : Dev) (now : Nat) (h : Hit) (off w old : Nat) : Dev :=
  let k := h.i
  if off = 0x20 then
    if w = old then d else d.modPrism (fun p => { p with acq := false, loss := false, range := false, pbar := {} })
  else if 0x100 ≤ off ∧ off < 0x300 ∧ off % 0x20 = 0 then
    if bit w 0 && !bit old 0 then d.chanStart now k else if bit old 0 && !bit w 0 then d.chanStop now k else d
  else if 0x300 ≤ off then
    let o := off % 0x10
    let quiet := bits w 15 14 == 0
    d.updChan k (fun c => { c with
      ta := if o = 0 || o = 0xC then thrWrite (o = 0 && quiet) c.ta else c.ta
      tb := if o = 4 || o = 0xC then thrWrite (o = 4 && quiet) c.tb else c.tb
      tr := if o = 8 || o = 0xC then thrWrite (o = 8 && quiet) c.tr else c.tr })
  else d
/-- WAVE registers (R303, R305). -/
def waveEffect (d : Dev) (off w old : Nat) : Dev :=
  if off = 0x20 then (if bit w 0 && !bit old 0 then d.waveStart else if bit old 0 && !bit w 0 then d.waveStop else d)
  else if off = 0x3C && bit w 0 then d.modWave (fun v => { v with fifo := v.fifo.drop 1 })
  else d
/-- A record's KEEP lock ends (R312). -/
def relEffect (d : Dev) (id : Nat) : Dev :=
  d.each [0, 1, 3] (fun d i => d.updRec i id (fun r => { r with keep := false }))
/-- CAPTURE registers (R307, R308, R309, R312, R319). -/
def captureEffect (d : Dev) (now : Nat) (h : Hit) (off w old : Nat) : Dev :=
  if off = 0x20 then (if bit w 0 && !bit old 0 then d.capStart now else if bit old 0 && !bit w 0 then d.capStop now else d)
  else if off = 0x28 then (if bit w 0 then d.trigger now 0 255 now else d)
  else if 0x40 ≤ off ∧ off < 0x68 then (if w = old then d else (d.partDiscard h.i).logDrain)
  else if off = 0xBC then d.relEffect w
  else d
/-- STREAM registers (R325, R335, R340, R341). -/
def streamEffect (d : Dev) (now : Nat) (h : Hit) (off w old : Nat) : Dev :=
  let n := h.i
  if off < 0x100 then d
  else if off % 0x40 = 0 then
    if bit w 0 && !bit old 0 then d.rxEnable now n
    else if bit old 0 && !bit w 0 then (d.rxClose now n).txFallCheck now else d
  else if off % 0x40 = 0x20 then
    if bit w 0 && !bit old 0 then d.txStart now n else if bit old 0 && !bit w 0 then d.txStop n else d
  else if off % 0x40 = 0x34 then (if bit w 0 then d.txResync n else d)
  else d
/-- MODEL registers (R239, R250). -/
def modelEffect (d : Dev) (h : Hit) (off w old : Nat) : Dev :=
  if 0x60 ≤ off ∧ off < 0x80 then
    if bits w 10 8 = bits old 10 8 then d else d.modMod (fun m => { m with ind := tset {} m.ind h.i {} })
  else if 0x100 ≤ off ∧ off < 0x400 then
    if bits w 14 12 = bits old 14 12 then d else d.updModel h.i (fun m => { m with wind := {} })
  else if off % 0x10 = 4 && decide (0x400 ≤ off) then d.updModel h.i (fun m => { m with age := (w : Rat) / 4294967296 })
  else d
/-- DIAG registers: a baseline or an alarm limit changes (R263). -/
def diagEffect (d : Dev) (h : Hit) (off : Nat) : Dev :=
  if off = 0x74 then d.ptAlarms
  else if 0x400 ≤ off then d.ptAlarm ((off - 0x400) / 0xC0) h.i
  else d

/-- A register whose accepted value lives in the state of its block, not in the register table. -/
def heldElse (page off : Nat) : Bool :=
  (page == 0x20 && [0x50, 0x54, 0x64, 0x68, 0x6C, 0x70, 0x74, 0x78].contains off) ||
    (decide (0x21 ≤ page ∧ page ≤ 0x23) && decide (off < 0x400) && (off - 0x40) % 0x20 == 0) ||
    (page == 0x24 && off == 0x24) || (page == 3 && off == 0x4C) || (page == 1 && off == 0x20) ||
    (page == 0x34 && decide (0x400 ≤ off)) || (page == 0x1E && decide (0x80 ≤ off ∧ off < 0x100) && off % 0x20 == 0xC)

/-- The effect of an accepted write, after its value is held: the word written, the value now held and the one held
before. -/
def regEffect (d : Dev) (now : Nat) (h : Hit) (off w v old : Nat) : Dev :=
  let p := h.page
  let c := d.fld 0x20 0x60 13 8
  if p = 0 then
    if off < 0x60 then ((d.syncAll allUnits).arrUpdate).osCheck now
    else if off < 0x70 then d.syncAll allUnits
    else if off = 0x78 then d.modBoot (fun b => { b with warm := true })
    else if off = 0x408 then { d with viol := {} }
    else d
  else if p = 1 then d.pwrWrite w
  else if p = 2 then
    if off = 0x28 then d.modHull (fun x => { x with cause := ofBits ((onBits 12 x.cause).filter (fun n => !bit w n)) })
    else if off = 0x50 then d.place now (bits w 7 0) (Hold.ofCode (bits w 9 8))
    else if off = 0x54 then d.clearHolds now (bits w 7 0)
    else if off = 0x58 then d.forceWrite now w
    else if off = 0x68 then (if bit w 0 then d.modHull (fun x => { x with kick := now }) else d)
    else if off = 0x6C then d.modHull (fun x => { x with consent := some (now + 1000000000) })
    else d
  else if p = 3 then
    if off = 0x20 then (if bits w 2 0 = bits old 2 0 then d else d.srcChanged now)
    else if off = 0x48 then d.hostTrimWrite
    else if off = 0x4C then d.leapWrite now old w
    else d
  else if 0x10 ≤ p ∧ p ≤ 0x14 then
    if off = 0x24 then d.syncAll (pageUnits (p - 0x10))
    else if off = 0x2C then
      { d with lostMap := tupd 0 d.lostMap (p - 0x10) (fun m => ofBits ((onBits 12 m).filter (fun n => !bit w n))) }
    else if 0x40 ≤ off ∧ off < 0x200 then (if bit w 0 then d.realignLink now (unitAt p h.i) else d)
    else if 0x800 ≤ off then d.syncCfg (unitAt p h.i)
    else d
  else if 0x18 ≤ p ∧ p ≤ 0x1C then
    if off = 0x20 then d.syncAll (pageUnits (p - 0x18))
    else if (off = 0x34 || off = 0x38) && v != old then
      d.each ((pageUnits (p - 0x18)).filter d.inSvc) (fun d u => d.updChord u (fun x => { x with patDue := true }))
    else d
  else if p = 0x1E then
    if off = 0x400 then (if bit old 0 && !bit v 0 then d.ptAbort now else d)
    else if heldElse p off then d.wr p off (ofBits (onBits 16 old ++ onBits 16 w))
    else d
  else if p = 0x20 then
    if off = 0x20 then d.periodEffect now w
    else if off = 0x24 then d.loopLatEffect now w
    else if off = 0x50 then d.modLat (fun l => { l with ovrMap := ofBits ((onBits 64 l.ovrMap).filter (fun n => !bit w n)) })
    else if off = 0x54 then
      d.modLat (fun l => { l with ovrMap := ofBits ((onBits 64 l.ovrMap).filter (fun n => decide (n < 32) || !bit w (n - 32))) })
    else if off = 0x64 then d.cdataEffect w
    else if off = 0x68 then d.manEffect c w
    else if off = 0x6C then d.updCtx c (fun x => { x with splSrc := w })
    else if off = 0x70 then d.updCtx c (fun x => { x with slew := w })
    else if off = 0x74 then d.updCtx c (fun x => { x with accel := w })
    else if off = 0x78 then d.tgtEffect c w
    else d
  else if 0x21 ≤ p ∧ p ≤ 0x23 then (if heldElse p off then d.ctxCtrl (ctxAt p h.i) w else d)
  else if p = 0x24 then (if off = 0x24 then d.lcodeEffect w else d)
  else if p = 0x28 then d.prismEffect now h off w old
  else if p = 0x2A then (if off = 0x38 && bit w 0 then d.modPhasor (fun x => { x with queue := x.queue.drop 1 }) else d)
  else if p = 0x2B then d.waveEffect off w old
  else if p = 0x2C then d.captureEffect now h off w old
  else if p = 0x30 then d.streamEffect now h off w old
  else if p = 0x34 then d.modelEffect h off w old
  else if p = 0x35 then d.diagEffect h off
  else d

/-- An accepted write: its value is held, then it acts. -/
def writeReg (d : Dev) (now : Nat) (rq : Req) (h : Hit) (off w : Nat) : Dev :=
  let old := d.rd h.page off
  let v := d.merged rq h off w
  let d' := if heldElse h.page off then d else d.wr h.page off v
  let d' := d'.regEffect now h off w v old
  if h.page = 2 && off = 0x20 then d'.pinTrig d now else d'

/-- A register write on BAR0: applied as a whole, or ignored as a whole and counted (R398, R405, R452). -/
def busWrite (d : Dev) (now : Nat) (rq : Req) (page off w : Nat) (whole : Bool) : Dev :=
  match d.refusal now rq page off w whole with
  | some r => d.violate rq (.bar0 page off) r
  | none =>
    if commonOff off then d.commonWrite page off w
    else
      match findReg page off with
      | some h => d.writeReg now rq h off w
      | none => d

end Dev
end Sys2Proof.Machine
end

