-- ==== Sys2Proof/Machine/Power.lean ====
section
/-! DEFINITION. Power domains turning on and off, what a domain's pages and blocks take when it does, and the NVM image
(chapter 14, R371, R421, R425). -/

namespace Sys2Proof.Machine

/-- The pages of a domain, ascending (Table 17.1). -/
def domPages (pd : Nat) : List Nat := (List.range 64).filter (fun p => pageDomain p == some pd)

/-- A register with a field that the NVM image gives (the reset columns of chapter 17). -/
def nvmReg (page off : Nat) : Bool :=
  (match findReg page off with
    | some h => h.row.writable.any (fun f => !f.acc.unkept)
    | none => false) &&
  !(page == 1 || page == 0x24 || page == 0x29 || (page == 3 && off == 0x48) ||
    (decide (0x18 ≤ page ∧ page ≤ 0x1C) && decide (0x400 ≤ off)) ||
    (page == 0x1E && (off == 0x400 || (decide (0x80 ≤ off ∧ off < 0x100) && off % 0x20 == 0xC))) ||
    (page == 0x20 && decide (0x60 ≤ off)) ||
    (decide (0x21 ≤ page ∧ page ≤ 0x23) && decide (off < 0x400) && (off - 0x40) % 0x20 == 0) ||
    (page == 0x30 && decide (off < 0x100)) || (page == 0x34 && decide (0x400 ≤ off)) ||
    (page == 0x35 && (off == 0x40 || decide (0x400 ≤ off))))
/-- Entries that the load writes after the others (R284; DEDUCED [36] for the other enables). -/
def nvmEnable (page off : Nat) : Bool :=
  (page == 0 && off == 0x30) || (page == 0x28 && decide (0x100 ≤ off ∧ off < 0x300) && off % 0x20 == 0) ||
    ((page == 0x2A || page == 0x2B || page == 0x2C) && off == 0x20) ||
    (page == 0x30 && decide (0x100 ≤ off) && off % 0x20 == 0)

namespace Dev

/-- The image of the slot loaded at the last AWARE. -/
def image (d : Dev) : Option Image :=
  if d.boot.nvmDefault then none else ((if d.boot.nvmSlot = 0 then d.nvm.a else d.nvm.b)).map (·.2)
/-- Writes image entries; those refused so far are left for another pass. -/
def loadPass (now : Nat) (d : Dev) (l : List (Nat × Word)) : Dev × List (Nat × Word) :=
  l.foldl (fun (a : Dev × List (Nat × Word)) e =>
    match a.1.refusal now .load (e.1 / 4096) (e.1 % 4096) e.2.toNat true with
    | none => (a.1.busWrite now .load (e.1 / 4096) (e.1 % 4096) e.2.toNat true, a.2)
    | some _ => (a.1, a.2 ++ [e])) (d, [])
/-- Writes image entries in up to three passes; what is refused in the last is counted (R405). DEDUCED [36]. -/
def loadRegs (now : Nat) (d : Dev) (l : List (Nat × Word)) : Dev :=
  let (d, r) := d.loadPass now l
  let (d, r) := d.loadPass now r
  r.foldl (fun d e => d.busWrite now .load (e.1 / 4096) (e.1 % 4096) e.2.toNat true) d
/-- The image entries of pages, in ascending page number (R421). -/
def loadPages (d : Dev) (now : Nat) (ps : List Nat) : Dev :=
  match d.image with
  | none => d
  | some im =>
    let mine := ps.flatMap (fun p => im.regs.filter (fun e => e.1 / 4096 == p && nvmReg p (e.1 % 4096)))
    let en := fun (e : Nat × Word) => nvmEnable (e.1 / 4096) (e.1 % 4096)
    (d.loadRegs now (mine.filter (fun e => !en e))).loadRegs now (mine.filter en)
/-- The offset in the LATTICE window of an image entry of a context (R230). -/
def coefOff (k : Nat) : Option Nat :=
  if k < 64 then some 0x64 else if k = 0x68 || k = 0x6C || k = 0x70 || k = 0x74 then some k else none
/-- An image entry of one context (R230, R250): written as through the window, so that a refused one is counted (R405);
coefficients apply at once, as no context runs. -/
def loadCoef (now : Nat) (d : Dev) (e : Nat × Nat × Word) : Dev :=
  let k := e.1
  let c := e.2.1
  let v := e.2.2.toNat
  match coefOff k with
  | none => d
  | some off =>
    match (d.wr 0x20 0x60 (c % 64 * 256 + k % 64)).refusal now .load 0x20 off v true with
    | some r => d.violate .load (.bar0 0x20 off) r
    | none =>
      if k < 64 then d.updCtx c (fun x => { x with k := tset 0 x.k k (sx 16 v) })
      else if k = 0x68 then d.manEffect c v
      else if k = 0x6C then d.updCtx c (fun x => { x with splSrc := v })
      else if k = 0x70 then d.updCtx c (fun x => { x with slew := v })
      else d.updCtx c (fun x => { x with accel := v })
/-- What a domain takes from the image beside its registers (R200, R230, R318). -/
def loadBlock (d : Dev) (now pd : Nat) : Dev :=
  match d.image with
  | none => d
  | some im =>
    if pd = 2 then
      let d := im.coef.foldl (loadCoef now) d
      d.modLat (fun l => { l with code := im.lcode.foldl (fun m p => tset 0 m (p.1 % 16384) p.2) l.code })
    else if pd = 7 then d.modCap (fun c => { c with store := im.store.foldl (fun m p => tset 0 m p.1 p.2) c.store })
    else d

/-- The pages of a domain take their reset values: registers, events, masks, keys (R425). -/
def pageReset (d : Dev) (pd : Nat) : Dev :=
  { d with
    regs := d.regs.filter (fun e => pageDomain (e.1 / 4096) != some pd)
    pages := d.pages.filter (fun e => pageDomain e.1 != some pd) }
/-- Units whose Chord state restarts. -/
def unitReset (d : Dev) (l : List Nat) : Dev := { d with chord := d.chord.filter (fun e => !l.contains e.1) }
/-- What the blocks of a domain start with when it turns on (Table 14.4, R200, R214, R235, R284, R320, R425). -/
def blockReset (d : Dev) (pd : Nat) : Dev :=
  if pd = 2 then (({ d with lat := {} }).modTherm (fun t => { t with sbSup := 64 })).arrUpdate
  else if pd = 3 then
    { (d.unitReset (List.range 24)) with
      vcell := [], vstr := [], vRun := false, vBlk := 0, vLat := false
      cmpStat := d.cmpStat.filter (fun e => decide (2 ≤ e.1)), cmpDom := d.cmpDom.filter (fun e => decide (2 ≤ e.1)) }
  else if pd = 4 then
    { (d.unitReset ((List.range 28).map (24 + ·))) with
      cmpStat := d.cmpStat.filter (fun e => decide (e.1 < 2)), cmpDom := d.cmpDom.filter (fun e => decide (e.1 < 2)) }
  else if pd = 5 then ({ d with prism := {} }).modPhasor (fun p => { steps := p.steps, hist := p.hist })
  else if pd = 6 then { d with wave := {} }
  else if pd = 7 then
    d.modCap (fun c => { buf := c.buf, logSeq := c.logSeq, logLost := c.logLost, lostOff := c.lostOff })
  else if pd = 8 then { d with port := [], hrWr := 0, hrLost := 0 }
  else if pd = 9 then
    let n := d.nvm
    let cells := n.ages.foldl (fun (t : Tbl MCell) (p : Nat × Rat) => tset {} t p.1 { age := p.2 }) []
    let bases := n.base.foldl (fun (d : Dev) p => d.wr 0x35 (ptBase (p.1 / 64) (p.1 % 64)) p.2)
      { d with model := { cell := cells }, diag := { est := n.est, trend := n.trend } }
    bases.modNvm (fun v => { v with refused := 0, done := 0, saveTs := 0 })
  else d
/-- The estimates, trends, baselines and ageing go to the save area (R250, R263). -/
def saveArea (d : Dev) : Dev :=
  let ages := ((List.range 48).map (fun k => (k, (d.mc k).age))).foldl (fun (t : Tbl Rat) p => tset 0 t p.1 p.2) []
  let keys := (List.range 3).flatMap (fun q => (List.range 48).map (fun i => (q, i))) ++ (List.range 4).map (fun i => (3, i))
  let base := keys.foldl (fun (t : Tbl Nat) p => tset 0 t (ptKey p.1 p.2) (d.fld 0x35 (ptBase p.1 p.2) 15 0)) []
  d.modNvm (fun v => { v with ages := ages, est := d.diag.est, trend := d.diag.trend, base := base })

/-- A domain arrives: its ON bit sets, its pages and blocks take their reset values (R362, R425). -/
def domainStart (d : Dev) (pd : Nat) : Dev :=
  let d := d.modPwr (fun p => { p with on := setBit p.on pd true, trans := setBit p.trans pd false, rising := setBit p.rising pd false })
  (d.pageReset pd).blockReset pd
/-- What the NVM load gives a domain that turns on, from AWARE on (R373, R421, R425). -/
def domainLoad (d : Dev) (now pd : Nat) : Dev :=
  if d.awareUp then (d.loadPages now (domPages pd)).loadBlock now pd else d
/-- A domain that has its values is READY: its pages are, and what waited for it goes on (R263, R316, R373). -/
def domainReady (d : Dev) (pd : Nat) : Dev :=
  let d := if pd = 9 then d.ptAlarms else d
  let d := d.each (domPages pd) (fun d p => d.updPage p (fun q => { q with ready := true }))
  let d := if pd = 7 then
      let d := if d.cap.lostOff then (d.raise 0x2C 4).modCap (fun c => { c with lostOff := false }) else d
      d.logDrain
    else d
  let byNvm := bit d.boot.nvmOn pd
  let late := pd = 7 && d.readyRun
  let d := d.modBoot (fun b => { b with
    nvmOn := setBit b.nvmOn pd false, untested := if byNvm then b.untested else setBit b.untested pd true
    memDue := b.memDue || (byNvm && late) })
  d.raise 1 0
/-- DOMAIN_ON (R362, R363, R373, R425). -/
def doDomainOn (d : Dev) (now pd : Nat) : Dev :=
  if pd < 2 || 9 < pd || !bit d.pwr.trans pd || !bit d.pwr.rising pd then d
  else ((d.domainStart pd).domainLoad now pd).domainReady pd

/-- What uses a domain ends as the domain turns off: the channels stop under R283, a fade that runs with its swap DONE
(R284, R285), and the domain's commands complete ABORTED. -/
def blockStop (d : Dev) (now pd : Nat) : Dev :=
  (if pd = 5 then d.each (List.range 16) (fun d k => d.chanStop now k) else d).abortDomain now pd
/-- The effects of Table 14.4 when a domain turns off. -/
def blockOff (d : Dev) (now pd : Nat) : Dev :=
  let d := d.blockStop now pd
  if pd = 2 then
    d.each allCtx (fun d c => d.updCtx c (fun x => { x with
      st := .idle, req := 0, staged := [], en := false, adm := false, polDue := false, zero := false, ovr := 0 }))
  else if pd = 3 then { d with vRun := false, vLat := false }
  else if pd = 5 then
    d.modPhasor (fun p => { p with queue := [], newest := none })
  else if pd = 6 then { d with wave := {} }
  else if pd = 7 then
    d.modCap (fun c => { buf := c.buf, logSeq := c.logSeq, logLost := c.logLost, lostOff := c.lostOff, pulse := c.pulse })
  else if pd = 8 then
    (d.each (List.range 8) (fun d n => (d.updPort n rxOffOf).txStop n)).modPwr (fun p => { p with fadeOff := false })
  else if pd = 9 then
    (if d.therm.nvmOk && d.stage != .cooldown then d.saveArea else d).modNvm (fun v => { v with saving := false, saveDue := false })
  else d
/-- The upper halves latched from pages of a domain are discarded (R7). -/
def latchDrop (d : Dev) (pd : Nat) : Dev :=
  d.modBus (fun b => { b with latch := b.latch.filter (fun e => pageDomain (e.1 % 2 ^ 20 / 4096) != some pd) })
/-- A domain is off: its ON bit clears, its events and keys are lost (R362, R403, R416); a shed PD8 stays on until every
receiver weight has faded (R359). One that the NVM load has
requested meanwhile turns on again. DEDUCED [37]. -/
def doDomainOff (d : Dev) (now pd : Nat) : Dev :=
  if pd < 2 || 9 < pd || !bit d.pwr.trans pd || bit d.pwr.rising pd || (pd == 8 && d.pwr.fadeOff) then d
  else
    let d := (d.blockOff now pd).latchDrop pd
    let d := { d with pages := d.pages.filter (fun e => pageDomain e.1 != some pd) }
    let d := d.modPwr (fun p => { p with on := setBit p.on pd false, trans := setBit p.trans pd false })
    let again := d.flag 1 0x20 pd
    let d := d.modBoot (fun b => { b with untested := setBit b.untested pd false, nvmOn := setBit b.nvmOn pd (bit b.nvmOn pd && again) })
    let d := d.raise 1 1
    if again then d.turnOn pd else d
/-- The device turns a domain off by its own action: what uses it ends, its REQ bit clears (R363, R388). -/
def ownOff (d : Dev) (now pd : Nat) : Dev := (d.blockStop now pd).turnOff pd

/-- The slot a CMD_NVM_WRITE programs: the one not loaded last (R371, R429). -/
def nvmNext (d : Dev) : Nat := 1 - d.boot.nvmSlot
/-- Generation of a slot; 0 where it holds no valid image (R429). -/
def nvmGen (s : Option (Nat × Image)) : Nat := (s.map (·.1)).getD 0
/-- The image that an AWARE loads is the newer valid one (R371). -/
def nvmPick (d : Dev) : Dev :=
  d.modBoot (fun b => match d.nvm.a, d.nvm.b with
    | none, none => { b with nvmDefault := true }
    | some _, none => { b with nvmDefault := false, nvmSlot := 0 }
    | none, some _ => { b with nvmDefault := false, nvmSlot := 1 }
    | some a, some y => { b with nvmDefault := false, nvmSlot := if y.1 < a.1 then 0 else 1 })
/-- PWR:REQ takes its NVM value, and the domains it names turn on (R363, R425). -/
def loadReq (d : Dev) (now : Nat) : Dev :=
  let v := match d.image with
    | some im => ((im.regs.find? (fun e => e.1 == 0x1020)).map (fun e => e.2.toNat)).getD 0x3FF
    | none => 0x3FF
  let d := match d.refusal now .load 1 0x20 v true with
    | some r => (d.violate .load (.bar0 1 0x20) r).pwrWrite (d.rd 1 0x20)
    | none => d.pwrWrite v
  d.modBoot (fun b => { b with nvmOn := d.pwr.trans &&& d.rd 1 0x20 })
/-- HULL:TSD.THR takes its image value, 120 to 135 °C (R387). -/
def loadThr (d : Dev) : Dev :=
  match d.image with
  | none => d
  | some im =>
    match im.regs.find? (fun e => e.1 == 0x2070) with
    | none => d
    | some e =>
      let t := bits e.2.toNat 31 24
      if 120 ≤ t ∧ t ≤ 135 then d.modHull (fun h => { h with tsdThr := t }) else d.violate .load (.bar0 2 0x70) rRange
/-- The pages of PD0 and PD1. -/
def basePages : List Nat := (List.range 64).filter (fun p => pageDomain p == some 0 || pageDomain p == some 1)
def setReady (d : Dev) (l : List Nat) (b : Bool) : Dev := d.each l (fun d p => d.updPage p (fun q => { q with ready := b }))
/-- NVM_LOAD_END: the load that an entry to AWARE began has been made (R10, R363, R371, R425). -/
def doNvmLoad (d : Dev) (now : Nat) : Dev :=
  if d.stage != .aware || d.boot.loaded then d
  else
    let d := d.nvmPick
    let d := if d.boot.firstLoad then d
      else
        let d := (d.loadThr.loadPages now (basePages.filter (· != 1))).modBus (fun b => { b with subsys := (d.image.map (·.subsys)).getD 0 })
        (d.modBoot (fun b => { b with firstLoad := true })).setReady basePages true
    let d := d.loadReq now
    d.modBoot (fun b => { b with loaded := true })

end Dev

/-- DOMAIN_ON (R362). -/
def execDomainOn (pd : Nat) (s : State) : Host.Outcome State Fault Refusal := onDev s (fun t d => d.doDomainOn t pd)
/-- DOMAIN_OFF (R362). -/
def execDomainOff (pd : Nat) (s : State) : Host.Outcome State Fault Refusal := onDev s (fun t d => d.doDomainOff t pd)
/-- PWR_REQ (R363). -/
def execPwrReq (rq : Req) (w : Word) (s : State) : Host.Outcome State Fault Refusal :=
  onDev s (fun t d => d.busWrite t rq 1 0x20 w.toNat true)
/-- NVM_LOAD_END (R371). -/
def execNvmLoadEnd (s : State) : Host.Outcome State Fault Refusal := onDev s (fun t d => d.doNvmLoad t)

end Sys2Proof.Machine
end

