-- ==== Sys2Proof/Machine/Nvm.lean ====
section
/-! DEFINITION. The NVM: image writes, ageing and estimate saves, and the calibrations (R250, R263, R360, R414, R415,
R429, R430, R445). -/

namespace Sys2Proof.Machine
namespace Dev

/-- The contents of a slot. -/
def setSlot (d : Dev) (i : Nat) (v : Option (Nat × Image)) : Dev :=
  d.modNvm (fun n => if i = 0 then { n with a := v } else { n with b := v })
/-- A slot has been erased. -/
def wear (d : Dev) (i : Nat) : Dev :=
  d.modNvm (fun n => if i = 0 then { n with wearA := sat1 16 n.wearA } else { n with wearB := sat1 16 n.wearB })
/-- Why a CMD_NVM_WRITE ends at once: its status and result (R415). -/
def nvmRefused (d : Dev) (s : Slot) : Option (Nat × Nat) :=
  let addr := argLE s 0 8
  let len := argLE s 8 4
  if addr % 4 ≠ 0 then some (stBadArg, 8)
  else if len = 0 || len % 4 ≠ 0 then some (stBadArg, 16)
  else if 2097152 < len then some (stBadLength, 0)
  else if !d.domOn 9 then some (stRefState, 0)
  else if bit s.early 0 then some (stRefTemp, 0)
  else if d.nvm.writing.isSome || d.nvm.saving || bit s.early 1 then some (stBusy, 0)
  else none
/-- CMD_NVM_WRITE executes (R415): the slot not loaded last loses its mark, which only DONE gives back. -/
def doNvmWrite (d : Dev) (now : Nat) : Dev :=
  match d.nextCmd 0x20 with
  | none => d
  | some (n, s) =>
    let d := d.beginCmd n
    match d.nvmRefused s with
    | some (st, r) => ((d.setSlot d.nvmNext none).endCmd now n st r).raise 0x3C 1
    | none =>
      let slot := d.nvmNext
      let d := d.setSlot slot none
      if !d.bus.busMaster then (d.endCmd now n stHwFault).raise 0x3C 1
      else d.modNvm (fun v => { v with writing := some (slot, n), shut := !d.therm.nvmOk })
/-- A save begins, waits for a running write, or is refused by the gate (R250, R430). -/
def doSave (d : Dev) : Dev :=
  if !d.domOn 9 || !d.awareUp || d.nvm.saving then d
  else if d.nvm.writing.isSome then d.modNvm (fun v => { v with saveDue := true })
  else
    let d := d.modNvm (fun v => { v with saveDue := false })
    if d.therm.nvmOk then d.modNvm (fun v => { v with saving := true })
    else
      let d' := (d.modNvm (fun v => { v with refused := sat1 16 v.refused })).modMod (fun m => { m with saveLate := true })
      if d.model.saveLate then d' else d'.raise 0x34 7
/-- A save completes, or fails to verify (R430, Table 17.21). -/
def doSaved (d : Dev) (now : Nat) (ok : Bool) : Dev :=
  if !d.nvm.saving then d
  else
    let d := d.modNvm (fun v => { v with saving := false })
    if ok then
      ((d.saveArea.modNvm (fun v => { v with done := sat1 16 v.done, saveTs := now })).modMod (fun m => { m with saveLate := false })).raise 0x3C 0
    else d.raise 0x3C 2
/-- A write ends REFUSED_TEMP where, and only where, the gate has closed while it ran (R360). -/
def writeShut (d : Dev) (r : NvmEnd) : NvmEnd := if d.nvm.shut then .gateClosed else r
/-- WRITE_END: the slot is marked with a new generation, or stays unmarked (R415, R429); a save that waited runs. -/
def doWriteEnd (d : Dev) (now : Nat) (r : NvmEnd) : Dev :=
  match d.nvm.writing with
  | none => d
  | some (slot, n) =>
    if r == .gateClosed && !d.nvm.shut then d
    else
    let e := d.writeShut r
    let d := d.modNvm (fun v => { v with writing := none, shut := false })
    let d := match e with
      | .done img =>
        let g := max (nvmGen d.nvm.a) (nvmGen d.nvm.b) + 1
        ((d.setSlot slot (some (g, img))).wear slot).endCmd now n stDone slot
      | .crcBad => d.endCmd now n stHwFault
      | .verifyBad => ((d.wear slot).endCmd now n stHwFault).raise 0x3C 2
      | .pcieErr b => d.endCmd now n stHwFault b
      | .gateClosed => (d.wear slot).endCmd now n stRefTemp
    let d := d.raise 0x3C 1
    if d.nvm.saveDue then d.doSave else d

/-- CMD_CALIBRATE executes (R414). -/
def doCalibrate (d : Dev) (now : Nat) : Dev :=
  match d.nextCmd 0x04 with
  | none => d
  | some (n, s) =>
    let d := d.beginCmd n
    let t := argLE s 0 1
    if t = 0 || 3 < t then d.endCmd now n stBadArg 8
    else if d.stage != .ready then d.endCmd now n stRefState
    else if d.boot.calib.isSome then d.endCmd now n stBusy
    else d.modBoot (fun b => { b with calib := some (t, n) })
/-- A calibration result lies within Table 18.9. Target 1: the sixteen bins in 0.1 ps, then 1 where they are
monotonic; target 2: the offset in codes, the references' difference in 0.01 %; target 3: the delay in 0.1 ns. -/
def calOk (t : Nat) (r : List Int) : Bool :=
  if t = 1 then decide (r.length = 17) && (r.take 16).all (fun x => decide (375 ≤ x ∧ x ≤ 875)) && r.getD 16 0 == 1
  else if t = 2 then decide (r.length = 2) && decide (-4 ≤ r.getD 0 9 ∧ r.getD 0 9 ≤ 4) && decide (-100 ≤ r.getD 1 999 ∧ r.getD 1 999 ≤ 100)
  else decide (r.length = 1) && decide (20 ≤ r.getD 0 0 ∧ r.getD 0 0 ≤ 60)
/-- CALIBRATION_END (R414, R445). -/
def doCalEnd (d : Dev) (now t : Nat) (r : List Int) : Dev :=
  match d.boot.calib with
  | none => d
  | some (t', n) =>
    if t' ≠ t then d
    else
      let d := d.modBoot (fun b => { b with calib := none })
      if calOk t r then (d.modBoot (fun b => { b with calRes := tset [] b.calRes t r })).endCmd now n stDone
      else d.endCmd now n stHwFault
/-- CALIBRATE_TIMEOUT (R414). -/
def doCalTimeout (d : Dev) (now : Nat) : Dev :=
  match d.boot.calib with
  | none => d
  | some (_, n) => (d.modBoot (fun b => { b with calib := none })).endCmd now n stTimeout

end Dev

/-- CMD_NVM_WRITE (R415). -/
def execCmdNvmWrite (s : State) : Host.Outcome State Fault Refusal := onDev s (fun t d => d.doNvmWrite t)
/-- WRITE_END (R415, R429). -/
def execWriteEnd (r : NvmEnd) (s : State) : Host.Outcome State Fault Refusal := onDev s (fun t d => d.doWriteEnd t r)
/-- AGEING_SAVE (R250). -/
def execAgeingSave (s : State) : Host.Outcome State Fault Refusal := onDev s (fun _ d => d.doSave)
/-- SAVED (R430). -/
def execSaved (ok : Bool) (s : State) : Host.Outcome State Fault Refusal := onDev s (fun t d => d.doSaved t ok)
/-- CMD_CALIBRATE (R414). -/
def execCmdCalibrate (s : State) : Host.Outcome State Fault Refusal := onDev s (fun t d => d.doCalibrate t)
/-- CALIBRATION_END (R414, R445). -/
def execCalibrationEnd (target : Nat) (result : List Int) (s : State) : Host.Outcome State Fault Refusal :=
  onDev s (fun t d => d.doCalEnd t target result)
/-- CALIBRATE_TIMEOUT (R414). -/
def execCalibrateTimeout (s : State) : Host.Outcome State Fault Refusal := onDev s (fun t d => d.doCalTimeout t)

end Sys2Proof.Machine
end

