-- ==== Sys2Proof/Machine/Rows.lean ====
section
/-! DEFINITION. Writes over the host interface: the BAR2 windows, and the rows of the table that are each one
write of one register (R398, R405, R412, Table 16.8). -/

namespace Sys2Proof.Machine

/-- A register write of BAR0 as a command. -/
def busRow (s : State) (rq : Req) (page off : Nat) (w : Word) : Host.Outcome State Fault Refusal :=
  onDev s (fun t d => d.busWrite t rq page off w.toNat true)

namespace Dev

/-- Sends the recorded messages of vectors that are no longer masked (R417). -/
def pbaFlush (d : Dev) : Dev :=
  if d.bus.linkUp && d.bus.msixEn then
    d.each ((onBits 32 d.bus.pba).filter (fun v => !d.vecMasked v)) (fun d v =>
      d.modBus (fun b => { b with pba := setBit b.pba v false, sent := v :: b.sent }))
  else d
/-- A word of the MSI-X table is written; unmasking a vector sends its recorded message (R417). -/
def msixWrite (d : Dev) (off w : Nat) : Dev :=
  let o := off - 0x8000
  (d.modBus (fun b => { b with msix := tset (w32 (if o % 16 = 12 then 1 else 0)) b.msix o (w32 w) })).pbaFlush

end Dev

/-- What a BAR2 offset holds: a descriptor word, a read-only register, CQ_HEAD, a word of the MSI-X table, or no
register (Table 16.8). -/
inductive Bar2 where
  | desc | ro | head | msix | none
  deriving DecidableEq, Repr

/-- The kind of a BAR2 offset (Table 16.8). -/
def bar2Kind (off : Nat) : Bar2 :=
  if off % 4 != 0 then .none
  else if off < 0x200 then
    (if off % 0x40 < 0x38 then .desc else if off % 0x40 = 0x3C then .ro else .none)
  else if 0x1000 ≤ off ∧ off ≤ 0x1400 then .ro
  else if off = 0x1404 then .head
  else if 0x8000 ≤ off ∧ off < 0x8200 then .msix
  else if off = 0x9000 then .ro
  else .none

/-- The reason a BAR2 write is ignored for, if it is: PD1 off or no register, a read-only register or the wrong
interface, a partial write, a reserved bit, a head outside the entries written (R405, R412, R452). -/
def bar2Refusal (d : Dev) (r : Ring) (rq : Req) (off w : Nat) (whole : Bool) : Option Nat :=
  let k := bar2Kind off
  if !d.domOn 1 || k == .none then some rNoReg
  else if k == .ro || rq != .pcie then some rAccess
  else if !whole then some rPartial
  else if k == .head then
    if 64 ≤ w then some rRange
    else if r.unread < (w + 64 - r.head) % 64 then some rState
    else none
  else none

/-- A BAR2 write (R398, R407, R412, Table 16.8). -/
def bar2Write (s : State) (rq : Req) (off w : Nat) (whole : Bool) : State :=
  match bar2Refusal s.dev s.ring rq off w whole with
  | some r => { s with dev := s.dev.violate rq (.bar2 off) r }
  | none =>
    match bar2Kind off with
    | .desc => { s with dev := s.dev.modBus (fun b => { b with desc := tset 0 b.desc off (w32 w) }) }
    | .msix => { s with dev := s.dev.msixWrite off w }
    | .head =>
      { s with ring := { s.ring with head := w, unread := s.ring.unread - (w + 64 - s.ring.head) % 64 } }
    | .ro => s
    | .none => s

/-- REGISTER_WRITE: a write of any register of BAR0 or BAR2 (R398, R405). -/
def execRegisterWrite (rq : Req) (t : Target) (w : Word) (whole : Bool) (s : State) : Host.Outcome State Fault Refusal :=
  match t with
  | .bar0 page off => onDev s (fun n d => d.busWrite n rq page off w.toNat whole)
  | .bar2 off => .next (bar2Write s rq off w.toNat whole)
/-- CQ_HEAD: the host releases completion entries (R412). -/
def execCqHead (rq : Req) (w : Word) (s : State) : Host.Outcome State Fault Refusal :=
  .next (bar2Write s rq 0x1404 w.toNat true)

/-- PAGE_KEY: 0xE5A7 unlocks, 0x0000 locks (R403). -/
def execPageKey (rq : Req) (page : Nat) (w : Word) (s : State) : Host.Outcome State Fault Refusal := busRow s rq page 0x1C w
/-- DEV:VIOL_CLR (R405). -/
def execViolClr (rq : Req) (w : Word) (s : State) : Host.Outcome State Fault Refusal := busRow s rq 0 0x408 w
/-- EVT_MASK (R416, R417). -/
def execEvtMaskWrite (rq : Req) (page : Nat) (w : Word) (s : State) : Host.Outcome State Fault Refusal :=
  busRow s rq page 0x14 w
/-- EVT_PEND (R416, R417). -/
def execEvtPendClear (rq : Req) (page : Nat) (w : Word) (s : State) : Host.Outcome State Fault Refusal :=
  busRow s rq page 0x18 w
/-- DEV:STR_CFG[s] with UNCONF (R20). -/
def execUnconf (rq : Req) (str : Nat) (s : State) : Host.Outcome State Fault Refusal :=
  busRow s rq 0 (0x40 + 4 * str) 0x80000000
/-- FACET_x:LINK_CTRL[k] (R89). -/
def execRealign (rq : Req) (link : Nat) (w : Word) (s : State) : Host.Outcome State Fault Refusal :=
  busRow s rq (facetPage link) (0x40 + 0x20 * unitIdx link) w
/-- FACET_x:TRIM[k][p] (R110). -/
def execTrimWrite (rq : Req) (link p : Nat) (w : Word) (s : State) : Host.Outcome State Fault Refusal :=
  busRow s rq (facetPage link) (0x800 + 0x40 * unitIdx link + 4 * p) w
/-- CHORD_x:DEAD_CFG of CHORD page 0x18 + x (R95, R146). -/
def execDeadCfgWrite (rq : Req) (x : Nat) (w : Word) (s : State) : Host.Outcome State Fault Refusal :=
  busRow s rq (0x18 + x) 0x20 w
/-- CTX_x:CTRL[j] with EN set (R198). -/
def execCtxEnable (rq : Req) (c : Nat) (w : Word) (s : State) : Host.Outcome State Fault Refusal :=
  busRow s rq (ctxPage c) (0x40 + 0x20 * ctxIdx c) w
/-- CTX_x:CTRL[j] with EN clear (R191). -/
def execCtxDisable (rq : Req) (c : Nat) (w : Word) (s : State) : Host.Outcome State Fault Refusal :=
  busRow s rq (ctxPage c) (0x40 + 0x20 * ctxIdx c) w
/-- The CTRL word of a request (Table 7.12). -/
def reqWord (req : Nat) (en : Bool) : Word := w32 (16 * req + b2n en)
/-- CTX_x:CTRL[j] with REQ OPEN (R209). -/
def execReqOpen (rq : Req) (c : Nat) (en : Bool) (s : State) : Host.Outcome State Fault Refusal :=
  busRow s rq (ctxPage c) (0x40 + 0x20 * ctxIdx c) (reqWord 1 en)
/-- CTX_x:CTRL[j] with REQ CLOSE (R209). -/
def execReqClose (rq : Req) (c : Nat) (en : Bool) (s : State) : Host.Outcome State Fault Refusal :=
  busRow s rq (ctxPage c) (0x40 + 0x20 * ctxIdx c) (reqWord 2 en)
/-- CTX_x:CTRL[j] with REQ IDLE (R209). -/
def execReqIdle (rq : Req) (c : Nat) (en : Bool) (s : State) : Host.Outcome State Fault Refusal :=
  busRow s rq (ctxPage c) (0x40 + 0x20 * ctxIdx c) (reqWord 3 en)
/-- LATTICE:CDATA (R215). -/
def execCdataWrite (rq : Req) (w : Word) (s : State) : Host.Outcome State Fault Refusal := busRow s rq 0x20 0x64 w
/-- LCODE:DATA (R200). -/
def execLcodeDataWrite (rq : Req) (w : Word) (s : State) : Host.Outcome State Fault Refusal := busRow s rq 0x24 0x24 w
/-- LATTICE:TGT (R225). -/
def execTgtWrite (rq : Req) (w : Word) (s : State) : Host.Outcome State Fault Refusal := busRow s rq 0x20 0x78 w
/-- LATTICE:PERIOD (R181). -/
def execPeriodWrite (rq : Req) (w : Word) (s : State) : Host.Outcome State Fault Refusal := busRow s rq 0x20 0x20 w
/-- LATTICE:LOOP_LAT (R181). -/
def execLoopLatWrite (rq : Req) (w : Word) (s : State) : Host.Outcome State Fault Refusal := busRow s rq 0x20 0x24 w
/-- LOCUS:CTRL (R41). -/
def execSrcChange (rq : Req) (w : Word) (s : State) : Host.Outcome State Fault Refusal := busRow s rq 3 0x20 w

/-- HULL:SET (R376). -/
def execSet (rq : Req) (w : Word) (s : State) : Host.Outcome State Fault Refusal := busRow s rq 2 0x50 w
/-- HULL:CLR (R377). -/
def execClr (rq : Req) (w : Word) (s : State) : Host.Outcome State Fault Refusal := busRow s rq 2 0x54 w
/-- HULL:FORCE.TRIP (R378, Table 15.10). -/
def execForce (rq : Req) (s : State) : Host.Outcome State Fault Refusal := busRow s rq 2 0x58 1
/-- HULL:FORCE.BRK (R378, Table 15.10). -/
def execFbrk (rq : Req) (s : State) : Host.Outcome State Fault Refusal := busRow s rq 2 0x58 2
/-- HULL:KICK (R385). -/
def execKick (rq : Req) (w : Word) (s : State) : Host.Outcome State Fault Refusal := busRow s rq 2 0x68 w
/-- HULL:CONSENT (R386). -/
def execConsent (rq : Req) (w : Word) (s : State) : Host.Outcome State Fault Refusal := busRow s rq 2 0x6C w
/-- HULL:CAUSE (R383). -/
def execCauseClear (rq : Req) (w : Word) (s : State) : Host.Outcome State Fault Refusal := busRow s rq 2 0x28 w
/-- DEV:RST_CTRL (R374). -/
def execRstCtrl (rq : Req) (w : Word) (s : State) : Host.Outcome State Fault Refusal := busRow s rq 0 0x78 w
/-- VERTEX:WITHDRAW[s] (R167). -/
def execWithdraw (rq : Req) (str : Nat) (w : Word) (s : State) : Host.Outcome State Fault Refusal :=
  busRow s rq 0x1E (0x8C + 0x20 * str) w
/-- VERTEX:FREEZE (R170). -/
def execFreeze (rq : Req) (w : Word) (s : State) : Host.Outcome State Fault Refusal := busRow s rq 0x1E 0x400 w
/-- PRISM:CH_CTRL[k].RUN set (R282). -/
def execChannelStart (rq : Req) (k : Nat) (s : State) : Host.Outcome State Fault Refusal :=
  busRow s rq 0x28 (0x100 + 0x20 * k) 1
/-- PRISM:CH_CTRL[k].RUN cleared (R282). -/
def execChannelStop (rq : Req) (k : Nat) (s : State) : Host.Outcome State Fault Refusal :=
  busRow s rq 0x28 (0x100 + 0x20 * k) 0
/-- WAVE:CTRL.RUN set (R303). -/
def execWaveRun (rq : Req) (s : State) : Host.Outcome State Fault Refusal := busRow s rq 0x2B 0x20 1
/-- CAPTURE:CTRL.EN set (R308). -/
def execCaptureEn (rq : Req) (s : State) : Host.Outcome State Fault Refusal := busRow s rq 0x2C 0x20 1
/-- CAPTURE:TRIG.HOST (R309). -/
def execHostTrigger (rq : Req) (s : State) : Host.Outcome State Fault Refusal := busRow s rq 0x2C 0x28 1
/-- CAPTURE:REL (R312). -/
def execRel (rq : Req) (w : Word) (s : State) : Host.Outcome State Fault Refusal := busRow s rq 0x2C 0xBC w
/-- PHASOR:POP (R300). -/
def execPop (rq : Req) (s : State) : Host.Outcome State Fault Refusal := busRow s rq 0x2A 0x38 1
/-- WAVE:ARR_POP (R305). -/
def execArrPop (rq : Req) (s : State) : Host.Outcome State Fault Refusal := busRow s rq 0x2B 0x3C 1
/-- STREAM:TX_SYNC[n].RESYNC (R341). -/
def execResync (rq : Req) (n : Nat) (s : State) : Host.Outcome State Fault Refusal :=
  busRow s rq 0x30 (0x134 + 0x40 * n) 1
/-- STREAM:RX_CFG[n] as it stands, with EN set (R324). -/
def execRxEnSet (rq : Req) (n : Nat) (s : State) : Host.Outcome State Fault Refusal :=
  busRow s rq 0x30 (0x100 + 0x40 * n) (w32 (setBit (s.dev.rd 0x30 (0x100 + 0x40 * n)) 0 true))
/-- STREAM:RX_CFG[n] as it stands, with EN cleared (R335). -/
def execRxEnClear (rq : Req) (n : Nat) (s : State) : Host.Outcome State Fault Refusal :=
  busRow s rq 0x30 (0x100 + 0x40 * n) (w32 (setBit (s.dev.rd 0x30 (0x100 + 0x40 * n)) 0 false))
/-- MODEL:AGE_FULL[k] (R250). -/
def execAgeFullWrite (rq : Req) (k : Nat) (w : Word) (s : State) : Host.Outcome State Fault Refusal :=
  busRow s rq 0x34 (0x404 + 0x10 * k) w

end Sys2Proof.Machine
end

