-- ==== Sys2Proof/Machine/Read.lean ====
section
/-! DEFINITION. What every register of BAR0 reads (chapter 17 and the field tables of the owning chapters), the
latches of 64-bit pairs, and the reads that act (R7, R200, R215, R292, R404). Where a table shows a real quantity in a
unit and states no rounding, the value is one of the two neighbours. DESIGN CHOICE [7]. -/

namespace Sys2Proof.Machine

/-- Places a value at bit lo. -/
def at' (lo v : Nat) : Nat := v * 2 ^ lo
/-- A real shown as a whole number, signed n bits (site 25). -/
def shown (n : Nat) (x : Rat) : Nat := ux n (satI n (Config.roundAt 25 x))
/-- A real that is not negative shown as a whole number of n bits. -/
def shownU (n : Nat) (x : Rat) : Nat := min (2 ^ n - 1) (Config.roundAt 25 x).toNat
/-- A word whose bit i is set where a condition holds. -/
def mapBits (n : Nat) (f : Nat → Bool) : Nat := ofBits ((List.range n).filter f)
/-- Codes of a link state, a Chord mode, a receiver state, and of R_f (Tables 3.12, 5.12, 11.13, 13.9). -/
def LinkState.code : LinkState → Nat
  | .down => 0
  | .hello => 1
  | .align => 2
  | .standby => 3
  | .active => 4
  | .lost => 5
  | .mismatch => 6
def ChMode.code : ChMode → Nat
  | .idle => 0
  | .starting => 1
  | .modulating => 2
  | .resting => 3
  | .held => 4
  | .retreat => 5
def RxState.code : RxState → Nat
  | .off => 0
  | .search => 1
  | .locking => 2
  | .locked => 3
def rfCode (n : Nat) : Nat := if n = 4 then 2 else if n = 2 then 1 else 0
/-- The CRC-32 of coefficients, each a little-endian 32-bit word (R100, Table 11.13). -/
def coefCrc (l : List Int) : Nat := crc32 (l.flatMap (fun c => bytesLE 4 (ux 32 c)))

namespace Dev

/-- The page whose block owns a command (Table 16.7); the interface chapter's own commands stand under CMD.
DEDUCED [28]. -/
def cmdPage (op : Nat) : Nat :=
  if op = 1 || op = 2 then 2 else if op = 3 then 3 else if op = 8 then 0 else if op = 9 || op = 10 then 0x35
  else if op = 0x10 then 0x20 else if op = 0x11 then 0x29 else if op = 0x12 then 0x28
  else if op = 0x18 || op = 0x19 then 0x2C else 9
/-- PAGE_STATUS.BUSY (Table 16.1). -/
def pageBusy (d : Dev) (p : Nat) : Bool :=
  (List.range 32).any (fun n => d.running n && (d.slot n).any (fun s => cmdPage s.op == p))

/-- The common registers of a page (Table 16.1). -/
def readCommon (d : Dev) (p off : Nat) : Nat :=
  let q := d.pg p
  if off = 0 then 0x63480000 + p
  else if off = 4 then 1
  else if off = 8 then q.ctrl.toNat
  else if off = 0xC then at' 8 (b2n q.unlocked) + at' 2 (b2n (d.pageBusy p)) + 2 + b2n q.ready
  else if off = 0x10 then q.raw
  else if off = 0x14 then q.mask
  else if off = 0x18 then d.pend p
  else b2n q.unlocked
/-- A register that holds its value: its named fields, WO and W1C fields as 0, RWX fields as 0 while the page is
locked (R6, R403, Table 0.3). -/
def readHeld (d : Dev) (h : Hit) (v : Nat) : Nat :=
  let lock := !(d.pg h.page).unlocked
  h.row.flds.foldl (fun a f =>
    if f.acc.unkept || (f.acc.x && lock) then a else putBits a f.hi f.lo (bits v f.hi f.lo)) 0
/-- Units shown as a bit map by a link page's index or by number. -/
def heldMap (d : Dev) (lo n : Nat) : Nat :=
  (List.range n).foldl (fun a i => a + at' (2 * i) (d.holdOf (lo + i)).code) 0

/-- DEV and PWR (Tables 1.2, 14.6, 15.13, 15.14, 16.12, 16.13). -/
def readDev (d : Dev) (off : Nat) : Option Nat :=
  if off = 0x20 then some 0x63481001
  else if off = 0x34 then some (at' 16 d.nCells + d.domainsReq)
  else if off = 0x70 then some (at' 8 d.boot.why + at' 4 d.boot.last.code + d.boot.stage.code)
  else if off = 0x74 then
    some (at' 31 (b2n d.boot.nvmDefault) + at' 30 d.boot.nvmSlot + at' 16 d.boot.untested + d.boot.stFail)
  else if off = 0x80 then
    some (at' 4 (if d.sd15Held then 1 else if d.tinHeld then 2 else 0) +
      at' 2 (if d.sdclk1Held then 1 else if d.toutHeld then 2 else 0) +
      (if d.irigHeld then 1 else if d.sp7Held then 2 else 0))
  else if off = 0x84 then some (mapBits 32 (fun n => d.pageOn n && d.pend n != 0))
  else if off = 0x88 then some (mapBits 32 (fun n => d.pageOn (32 + n) && d.pend (32 + n) != 0))
  else if off = 0x400 then some d.viol.count
  else if off = 0x404 then some d.viol.last
  else none
def readPwr (d : Dev) (off : Nat) : Option Nat :=
  if off = 0x24 then some (at' 16 d.pwr.on + d.pwr.trans)
  else if off = 0x28 then
    let pll := fun (n : Nat) (on : Bool) => at' n (b2n (on && !bit d.pwr.late n))
    some (pll 3 (d.domOn 1) + pll 2 (d.domOn 5) + pll 1 (d.domOn 2) + pll 0 (d.domOn 3 || d.domOn 4))
  else none
/-- HULL (Tables 15.7 to 15.10). -/
def readHull (d : Dev) (now off : Nat) : Option Nat :=
  let h := d.hull
  if off = 0x24 then
    some (at' 8 (b2n d.brkTrip) + at' 7 (b2n d.faultN) + at' 6 (b2n h.safeN) + at' 5 (b2n h.tsdLive) +
      at' 4 (b2n (d.consentOk now)) + at' 3 (b2n (h.disarm != .none)))
  else if off = 0x28 then some h.cause
  else if off = 0x2C then some h.first
  else if 0x40 ≤ off ∧ off < 0x4C then some (d.heldMap (16 * ((off - 0x40) / 4)) 16)
  else if off = 0x4C then some (d.heldMap 48 4)
  else if off = 0x60 then some (at' 16 h.wdog + b2n (d.domOn 2 && d.readyRun))
  else if off = 0x70 then some (at' 24 h.tsdThr + h.tsdCount)
  else if off = 0x74 then some (at' 16 (ux 16 h.coolMax) + h.cool)
  else none
/-- LOCUS (Tables 2.7, 2.9, 2.10). DESIGN CHOICE [68]: a phase error beyond 24 bits shows its low 24. -/
def readLocus (d : Dev) (now off : Nat) : Option Nat :=
  let l := d.locus
  let within := fun (t : Option Nat) (n : Nat) => t.any (fun x => decide (now ≤ x + n))
  if off = 0x24 then
    some (at' 15 (b2n l.refOk) + at' 14 (b2n (within l.irigTs 2000000000)) +
      at' 13 (b2n (l.haveEdge && decide (now ≤ l.lastEdge / 16 + 2500000000))) +
      at' 11 (unlockCode l.st l.leftLock now) + at' 8 (pmuTq l.tq) + at' 4 l.tq + at' 3 (b2n l.secsValid) + l.st.code)
  else if off = 0x40 then some (ux 32 l.trim)
  else if off = 0x44 then some (ux 32 l.target)
  else if off = 0x4C then
    some (at' 11 (b2n (within l.occurred 86400000000000)) + at' 10 (b2n l.active) + d.fld 3 0x4C 9 0)
  else if off = 0x60 then some (at' 8 (ux 24 l.phase) + l.lastEdge % 16)
  else if off = 0x68 then some l.ppsRej
  else if off = 0x6C then some l.irigErr
  else none
/-- HK (Table 14.7). -/
def readHk (d : Dev) (off : Nat) : Option Nat :=
  let t := d.therm
  if off = 0x20 then some (t.round % 2 ^ 32)
  else if off = 0x24 then some (at' 16 t.ov + at' 8 t.uv + at' 1 (b2n t.icoreOver) + b2n t.refFault)
  else if off = 0x28 then some t.icore
  else if 0x40 ≤ off ∧ off < 0x58 then some (t.sup.getD ((off - 0x40) / 4) 0)
  else none
/-- A sensor word (Table 14.9). -/
def sensWord (d : Dev) (i : Nat) : Nat :=
  let s := d.sensor i
  at' 16 (shown 16 s.val) + at' 8 (shown 8 (s.ofs / 2)) + at' 5 s.cause + at' 4 (b2n s.stale) + at' 3 (b2n s.nocheck) +
    at' 2 (b2n s.corr) + at' 1 (b2n s.held) + b2n s.suspect
/-- A sensor of a link is suspect; one of it raises an alarm (R350, R353). -/
def linkSens (d : Dev) (k : Nat) (f : Sensor → Bool) : Bool := (List.range 3).any (fun q => f (d.sensor (20 + 3 * k + q)))
/-- The sensor at an offset of a block of 52 × 3 words. -/
def nodeSens (off base : Nat) : Nat := 20 + (off - base) / 4
/-- THERM (Table 14.8). -/
def readTherm (d : Dev) (off : Nat) : Option Nat :=
  let t := d.therm
  if off = 0x24 then
    some (at' 16 (b2n t.nvmOk) + at' 8 (b2n (t.shed != 0)) + (allSens.filter (fun i => (d.sensor i).suspect)).length)
  else if off = 0x3C then
    some (at' 16 (shown 16 d.tDie) + shown 16 (d.dieVals.foldl min (d.dieVals.headD 0)))
  else if off = 0x40 then some (at' 16 t.sbTh + min 0x7FFF (shownU 16 (t.kDie * 32768)))
  else if off = 0x50 then some (mapBits 32 (fun k => d.linkSens k (·.suspect)))
  else if off = 0x54 then some (mapBits 20 (fun k => d.linkSens (32 + k) (·.suspect)))
  else if off = 0x58 then
    some (at' 16 (mapBits 4 (fun i => (d.sensor (16 + i)).suspect)) + mapBits 16 (fun i => (d.sensor i).suspect))
  else if 0xA0 ≤ off ∧ off < 0xF0 then some (d.sensWord ((off - 0xA0) / 4))
  else if 0x100 ≤ off ∧ off < 0x370 then some (d.sensWord (nodeSens off 0x100))
  else if 0x370 ≤ off ∧ off < 0x3A4 then
    let j := (off - 0x370) / 4
    some ((List.range 4).foldl (fun a i => a + at' (8 * i) (shownU 8 (d.kTh (4 * j + i) * 128))) 0)
  else if off = 0x3B0 then some (mapBits 32 (fun k => d.linkSens k (·.alarm)))
  else if off = 0x3B4 then
    some (at' 24 (mapBits 4 (fun i => (d.sensor (16 + i)).alarm)) +
      at' 20 (mapBits 4 (fun r => (List.range 4).any (fun i => (d.sensor (4 * r + i)).alarm))) +
      mapBits 20 (fun k => d.linkSens (32 + k) (·.alarm)))
  else if off = 0x3B8 then some (mapBits 32 (fun k => tget false t.thr k))
  else if off = 0x3BC then some (mapBits 20 (fun k => tget false t.thr (32 + k)))
  else if 0x400 ≤ off ∧ off < 0x670 then some (shownU 16 ((d.sensor (nodeSens off 0x400)).z * 8))
  else if off = 0x680 then some (shownU 16 (t.zDie * 8))
  else if 0x700 ≤ off ∧ off < 0x970 then some (ux 16 (d.sensor (nodeSens off 0x700)).raw)
  else if 0x980 ≤ off ∧ off < 0x9D0 then some (ux 16 (d.sensor ((off - 0x980) / 4)).raw)
  else none
/-- HOST and CMD (Tables 16.14, 16.15). -/
def readHost (d : Dev) (off : Nat) : Option Nat :=
  let b := d.bus
  if off = 0x20 then some (if b.linkUp then at' 8 b.linkWr + at' 1 (b2n b.busMaster) + 1 else at' 1 (b2n b.busMaster))
  else if off = 0x24 then some b.pcieRst
  else if off = 0x28 then some b.qspiErr
  else none
def readCmd (d : Dev) (seq off : Nat) : Option Nat :=
  if off = 0x20 then some (mapBits 32 (fun n => (d.slot n).isSome))
  else if off = 0x24 then some d.bus.refused
  else if off = 0x28 then some seq
  else if 0x40 ≤ off ∧ off < 0xC0 then
    some (match d.slot ((off - 0x40) / 4) with
      | some s => at' 16 s.handle + s.op % 128
      | none => 0)
  else none
/-- FACET (Tables 3.15, 3.19, 4.13). -/
def readFacet (d : Dev) (h : Hit) (off : Nat) : Option Nat :=
  let u := unitAt h.page h.i
  let l := d.lk u
  if off = 0x2C then some (tget 0 d.lostMap (h.page - 0x10))
  else if 0x40 ≤ off ∧ off < 0x200 then
    let o := off % 0x20
    if o = 4 then
      some (at' 24 l.dsPar + at' 16 l.dsLate + at' 15 (b2n l.aligned) + at' 14 (b2n l.bsStale) + at' 13 (b2n l.crcMatch) +
        at' 12 (b2n l.nodeV) + at' 8 l.nodeType + at' 6 l.nodeState + l.st.code)
    else if o = 0x10 then some l.delay
    else if o = 0x14 then some l.parErr
    else if o = 0x18 then some (at' 16 l.single + l.withheld)
    else if o = 0x1C then some l.echoRej
    else none
  else if 0x200 ≤ off ∧ off < 0x400 then
    if h.j = 0 then some (at' 24 l.nDesat + at' 16 l.nIntlk + at' 8 l.nUvlo + l.nDcov)
    else if h.j = 1 then some (at' 16 l.lastCode + at' 12 l.lastPos)
    else some (at' 8 (b2n (d.pre.any (fun p => p.left.contains u))) + l.byp)
  else if 0x404 ≤ off ∧ off < 0x800 ∧ off % 0x10 ≠ 0 then
    if h.j = 0 then some l.rtt else if h.j = 1 then some l.turn else some (at' 16 l.uErr + l.bsErr)
  else if 0xB00 ≤ off then some (at' 16 (tget 0 l.dlyOn h.j) + tget 0 l.dlyOff h.j)
  else none
/-- CELL_STAT.MODE (Table 5.12): held while Hull commands a safe state; idle once it no longer does and the link is
not ACTIVE. -/
def chMode (d : Dev) (u : Nat) : ChMode :=
  if d.effective u != .none then .held
  else if (d.ch u).mode == .held && (d.lk u).st != .active then .idle
  else (d.ch u).mode
/-- CHORD (Tables 5.5, 5.12). -/
def readChord (d : Dev) (h : Hit) (off : Nat) : Option Nat :=
  let u := unitAt h.page h.i
  let c := d.ch u
  let x := h.page - 0x18
  if off = 0x3C then some (at' 16 (tget 0 d.cmpDom x) + tget 0 d.cmpStat x)
  else if 0x100 ≤ off ∧ off < 0x300 then
    if h.j = 0 then
      some (at' 24 (d.chMode u).code + at' 16 c.slot + at' 8 c.nslot + at' 4 (b2n (c.dwell != 0)) + at' 3 (b2n c.limPh) +
        at' 2 (b2n c.limU) + at' 1 (b2n (d.patHeld u)) + b2n (c.legA.ovr != 0 || c.legB.ovr != 0))
    else if h.j = 1 then some (at' 16 (ux 16 c.u) + (if isLeg u then 0 else c.g))
    else if h.j = 2 then some c.phSent
    else if h.j = 3 then some (at' 16 c.ovl + c.drop)
    else if h.j = 4 then some (at' 16 c.refresh + c.forced)
    else if h.j = 5 then some (at' 16 (if isLeg u then 0 else shown 16 ((c.legB.carry : Rat) / 16)) + shown 16 ((c.legA.carry : Rat) / 16))
    else if h.j = 6 then some (at' 16 c.lost + c.late)
    else some c.cmp
  else none
/-- A share target in Q5.11: truncated where the truncation is the nearest, as Table 6.3 shows, either neighbour
elsewhere (Table 6.4). -/
def gTgtWord (g : Rat) : Nat :=
  let x := g * 2048
  min 65535 (if x - x.floor < 1 / 2 then x.floor else Config.roundAt 25 x).toNat
/-- VERTEX (Tables 6.4 to 6.6). -/
def readVertex (d : Dev) (h : Hit) (off : Nat) : Option Nat :=
  if off = 0x24 then some (at' 8 (b2n (d.flag 0x1E 0x400 0)) + at' 1 (b2n (!d.domOn 9)) + b2n d.vRun)
  else if 0x90 ≤ off ∧ off < 0x100 ∧ 0x10 ≤ off % 0x20 then
    let s := h.i
    let x := d.vs s
    let en := d.strEn s
    let cnt := fun (r : Role) => ((d.strCells s).filter (fun k => (d.vc k).role == r)).length
    if h.j = 0 then
      some (if en then at' 24 (d.nSvcOf s) + at' 16 (d.nMin s) + at' 8 (cnt .sharing) + cnt .resting else 0)
    else if h.j = 1 then
      some (at' 24 (if en then ux 8 (d.margin s) else 0) + at' 4 (b2n x.exh) + at' 3 (b2n (en && decide (d.margin s ≤ 0))) + at' 2 (b2n x.capped) +
        at' 1 (b2n x.noshare) + b2n x.restOk)
    else if h.j = 2 then some (at' 16 (ux 16 x.vActPub) + min 65535 (Config.sqrtAt 25 (x.iBlkPub * 1073741824)).toNat)
    else some (at' 16 (shown 16 x.phBar) + shown 16 (x.pBarPub * 32768))
  else if 0x100 ≤ off ∧ off < 0x400 then
    let c := d.vc h.i
    if h.j = 0 then some (at' 16 (gTgtWord c.gTgt) + c.g)
    else if h.j = 1 then some (at' 16 (shown 16 (c.tj * 8)) + shown 16 (c.h * 8))
    else if h.j = 2 then
      some (at' 16 c.age + at' 13 (b2n c.capped) + at' 12 (b2n c.subst) + at' 8 c.health.code + c.role.code)
    else some (at' 16 (ux 16 c.ph) + ux 16 c.eps)
  else none
/-- LATTICE and its coefficient and Spline window, which reads 0 while CSEL.CTX is 0 (Tables 7.9, 8.9, R230). TGT's bit 31,
ALL, reads 0: DESIGN CHOICE [71]. -/
def readLattice (d : Dev) (off : Nat) : Option Nat :=
  let l := d.lat
  let c := d.fld 0x20 0x60 13 8
  let x := d.cx c
  let win := fun (v : Nat) => some (if c = 0 then 0 else v)
  let a := d.admNow none
  if off = 0x2C then some l.arr
  else if off = 0x30 then some (at' 16 (ux 16 a.f) + ux 16 a.fw)
  else if off = 0x34 then some (at' 16 (ux 16 a.a) + ux 16 a.cw)
  else if off = 0x38 then some (at' 16 (ux 16 a.x) + ux 16 a.cap)
  else if off = 0x3C then some (at' 24 d.therm.sbSup + at' 16 d.therm.sbTh + at' 8 (b2n l.floor) + d.sb)
  else if off = 0x40 then some (at' 8 (l.dec.getD 2 0) + at' 4 (l.dec.getD 1 0) + l.dec.getD 0 0)
  else if off = 0x44 then some l.duty
  else if off = 0x50 then some (lo32 l.ovrMap)
  else if off = 0x54 then some (hi32 l.ovrMap)
  else if off = 0x58 then some (mapBits 32 (fun n => n != 0 && (d.cx n).st == .fault))
  else if off = 0x5C then some (mapBits 32 (fun n => (d.cx (32 + n)).st == .fault))
  else if off = 0x64 then win (ux 16 (tget 0 x.k (d.fld 0x20 0x60 5 0)))
  else if off = 0x68 then win (ux 16 x.man)
  else if off = 0x6C then win x.splSrc
  else if off = 0x70 then win x.slew
  else if off = 0x74 then win x.accel
  else if off = 0x78 then win (at' 16 x.tgtElem + ux 16 (d.elem c x.tgtElem).tgt)
  else if off = 0x7C then
    let e := d.elem c x.tgtElem
    win (at' 31 (b2n (d.splMoving c)) + at' 16 x.tgtElem + ux 16 (q15 e.y))
  else if off = 0x404 then some (at' 16 l.peakAll + l.peakC0)
  else none
/-- CTX_x (Tables 7.11 to 7.13, 8.3). When an instance of a due context runs within its period is not stated: BUSY is
then free [5]. -/
def readCtx (d : Dev) (now : Nat) (h : Hit) (off : Nat) : Option Nat :=
  let c := ctxAt h.page h.i
  let x := d.cx c
  if off < 0x400 then
    let o := off % 0x20
    if o = 0 then some (at' 4 x.req + b2n x.en)
    else if o = 0x18 then
      let due := d.dueAt c (d.runM now)
      let open' := due && (List.range (d.nElem c)).any (fun e => !(d.elem c e).done)
      some (at' 24 x.st.code + at' 16 x.ovr + at' 8 x.stale + at' 4 (b2n (d.isFresh c)) + at' 3 (b2n (d.cxDec c)) +
        at' 2 (b2n x.sat) + at' 1 (b2n due) + b2n (open' && Config.freeBool d.free))
    else if o = 0x1C then some (at' 16 x.cp + x.ops)
    else none
  else if off % 0x10 = 8 then some x.slack
  else if off % 0x10 = 0xC then some x.ovrTotal
  else none
/-- LCODE (Table 7.14); DATA is RWX. -/
def readLcode (d : Dev) (off : Nat) : Option Nat :=
  if off = 0x24 then
    some (if (d.pg 0x24).unlocked then (tget 0 d.lat.code (d.fld 0x24 0x20 13 0)).toNat else 0)
  else if off = 0x28 then some (crc32 ((List.range 16384).flatMap (fun a => bytesLE 4 (tget 0 d.lat.code a).toNat)))
  else none
/-- PRISM (Tables 11.8, 11.11); the stamps as the requester last latched them (R292). -/
def readPrism (d : Dev) (rq : Nat) (h : Hit) (off : Nat) : Option Nat :=
  let p := d.prism
  let k := h.i
  let c := d.chan k
  let la := tget 0 d.bus.latch (rq * 2 ^ 20 + 0x28000 + off)
  if off = 0x24 then some (at' 16 d.meanPer256 + at' 2 (b2n p.loss) + at' 1 (b2n p.range) + b2n p.acq)
  else if off = 0x2C then some (at' 16 d.demand + prismCap)
  else if off = 0x30 then
    some (at' 16 (mapBits 16 (fun i => (d.chan i).st == .settling)) + mapBits 16 (fun i => (d.chan i).st == .running))
  else if 0x10C ≤ off ∧ off < 0x300 then
    let o := off % 0x20
    if o = 0xC then
      some (at' 24 c.st.code + at' 23 (b2n c.valid) + at' 22 (b2n c.fade.isSome) + at' 21 (b2n c.pend.isSome) +
        at' 20 (b2n c.tr.on) + at' 19 (b2n c.tb.on) + at' 18 (b2n c.ta.on) + at' 8 c.sat +
        at' 4 ((c.fade.map (·.dst)).getD 0) + (match c.fade with
          | some f => f.frm
          | none => c.now))
    else if o = 0x10 then some (at' 31 (b2n c.valid) + at' 24 (c.out.stamp % 16) + ux 24 c.out.val)
    else if o = 0x14 || o = 0x18 then some (la % 2 ^ 32)
    else if o = 0x1C then some (Config.field 18 (2 * d.chDly k + d.gdHalf k))
    else none
  else none
/-- PRESP (Table 11.13). -/
def readPresp (d : Dev) (h : Hit) (off : Nat) : Option Nat :=
  let r := d.fld 0x29 0x20 3 0
  let b := d.bankOf h.i
  let sel := d.fld 0x29 0x100 19 16
  let rsp := d.respOf (d.flag 0x29 0x100 20) sel
  if off = 0x24 then some (at' 16 (romN r) + at' 12 (rfCode (romRf r)) + Config.romRev r % 256)
  else if off = 0x28 then some (coefCrc (d.respOf false r).coef)
  else if 0x40 ≤ off ∧ off < 0x100 then
    if h.j = 0 then
      some (if b.loaded then at' 31 1 + at' 16 b.taps + at' 12 (rfCode b.rf) + b.gd2 else 0)
    else if h.j = 1 then some (if b.loaded then coefCrc b.coef else 0)
    else some (mapBits 16 (fun k => d.bankUsed h.i k))
  else if off = 0x104 then some (ux 24 (listGet rsp.coef (d.fld 0x29 0x100 8 0)))
  else none
/-- PHASOR: the head of the queue (Tables 12.12, 12.13, R300). -/
def readPhasor (d : Dev) (h : Hit) (off : Nat) : Option Nat :=
  let p := d.phasor
  let f : PFrame := p.queue.headD {}
  let off' := off - 0x140
  if off = 0x24 then some (at' 16 p.queue.length + at' 2 (b2n (d.locus.st == .locked)) + b2n d.phasorOn)
  else if off = 0x30 then some p.drop
  else if off = 0x34 then some p.skip
  else if off = 0x108 then some (if p.queue.isEmpty then 0 else setBit f.flags 31 true)
  else if off = 0x10C then some (ux 32 f.freq)
  else if off = 0x110 then some (ux 32 f.rocof)
  else if 0x140 ≤ off ∧ off < 0x1C0 then
    let v := f.ph.getD (off' / 8) (0, 0)
    some (ux 32 (if h.i % 2 = 0 then v.1 else v.2))
  else if 0x1C0 ≤ off then
    let v := f.ps.getD ((off - 0x1C0) / 8) (0, 0)
    some (ux 32 (if h.i % 2 = 0 then v.1 else v.2))
  else none
/-- WAVE (Table 12.14). -/
def readWave (d : Dev) (off : Nat) : Option Nat :=
  let w := d.wave
  if off = 0x24 then some (at' 16 w.fifo.length + at' 1 (b2n w.waitClk) + b2n w.running)
  else if off = 0x38 then
    some (match w.fifo with
      | a :: _ => at' 31 1 + at' 24 (a.stamp % 16) + at' 16 a.chan + ux 16 a.d
      | [] => 0)
  else if off = 0x40 then some w.lost
  else none
/-- CAPTURE (Table 12.15). -/
def readCapture (d : Dev) (h : Hit) (off : Nat) : Option Nat :=
  let c := d.cap
  let cnt := fun (r : RingSt) => some (at' 16 r.lost + r.nOver)
  if off = 0x24 then some (at' 8 (b2n (!c.buf.isEmpty)) + b2n d.capEn)
  else if 0x44 ≤ off ∧ off < 0x6C ∧ off % 8 = 4 then
    let i := h.i
    some (if i = 2 || i = 4 then 0 else at' 16 (d.ringOf i).recs.length + Config.field 16 (d.ringOf i).slots)
  else if off = 0xA0 then cnt c.wf
  else if off = 0xA4 then cnt c.dist
  else if off = 0xA8 then cnt c.trace
  else if off = 0xAC then some c.logLost
  else if off = 0xB0 then some c.wf.newest
  else if off = 0xB4 then some c.dist.newest
  else if off = 0xB8 then some c.trace.newest
  else if off = 0x400 then some (at' 16 c.eccU + c.eccC)
  else none
/-- STREAM (Tables 13.7, 13.9); RX_PPM without a mean interval is free [13]. -/
def readStream (d : Dev) (h : Hit) (off : Nat) : Option Nat :=
  let n := h.i
  let p := d.port! n
  let pm := fun (f : Port → Bool) => mapBits 8 (fun i => f (d.port! i))
  if off = 0x2C then some d.hrWr
  else if off = 0x34 then some d.hrLost
  else if off = 0x38 then
    some (at' 24 (pm (·.txRun)) + at' 16 (pm (·.txFall)) + at' 8 (pm (fun q => !rxGoal q q.s1 || !rxGoal q q.s2)) +
      pm (fun q => q.st == .locked))
  else if 0x100 ≤ off then
    let o := off % 0x40
    if o = 8 then
      some (at' 24 p.st.code + at' 16 p.stable + at' 12 (p.ts % 16) + at' 8 p.rate + at' 7 (b2n p.pro) +
        at' 6 (b2n p.nonaudio) + at' 5 (b2n p.ofs) + at' 4 (b2n p.unsup) + at' 3 (b2n p.latLow) + at' 2 (b2n p.lost) +
        at' 1 (b2n (!rxGoal p p.s2)) + b2n (!rxGoal p p.s1))
    else if o = 0xC then
      some (if p.fhat = 0 then ux 32 (Config.freeInt d.free) else shown 32 ((fNom p.rate / p.fhat - 1) * 100000000))
    else if o = 0x18 then some (at' 16 p.conceal + p.par)
    else if o = 0x1C then some (at' 16 p.csErr + at' 8 p.rateChg + p.underrun)
    else if o = 0x28 then some (at' 4 (p.txTs % 16) + at' 1 (b2n p.txFall) + b2n p.txRun)
    else none
  else none
/-- MODEL (Tables 9.3, 9.4); HW of a winding that is not modelled is the largest value (R241). -/
def readModel (d : Dev) (h : Hit) (off : Nat) : Option Nat :=
  let m := d.mc h.i
  let run := d.domOn 9 && d.awareUp && d.fld 0x34 0x20 2 0 != 0
  if off = 0x24 then some (at' 1 (b2n d.model.saveLate) + b2n run)
  else if 0x60 ≤ off ∧ off < 0x80 ∧ off % 8 = 4 then
    let c := d.ind h.i
    some (at' 16 (shown 16 (c.t1 * 8)) + kQ15 (d.kL h.i) / 2 * 2 + b2n c.subst)
  else if 0x100 ≤ off ∧ off < 0x400 ∧ off % 0x10 ≠ 0 then
    if h.j = 0 then
      some (at' 16 (shown 16 (m.wind.t1 * 8)) + at' 1 (match d.hwOf h.i with
        | some w => shown 15 (w * 4)
        | none => 0x3FFF) + b2n m.wind.subst)
    else if h.j = 1 then
      let lim : Rat := ((d.fld 0x34 0x38 31 16 : Nat) : Rat) / 32768
      some (at' 16 (shown 16 (m.lam / lim * 4096)) + ux 16 (d.phCoreOf h.i))
    else some (at' 16 (shown 16 (m.tcap * 8)) + shownU 16 (m.age * 65536))
  else if 0x400 ≤ off ∧ off < 0x700 then
    let o := off % 0x10
    if o = 0 then
      some (at' 24 (shownU 8 (d.kW h.i * 128)) + at' 16 (shownU 8 (d.kC h.i * 128)) + at' 8 (shownU 8 (d.kK h.i * 128)) +
        shownU 8 (m.ki * 128))
    else if o = 4 then some (if (d.pg 0x34).unlocked then shownU 32 (m.age * 4294967296) else 0)
    else if h.j = 0 then some (at' 16 (shownU 16 m.energy) + shownU 16 (m.ripple * 10))
    else some (at' 16 (shownU 16 (m.wind.z * 8)) + shownU 16 (m.zk * 8))
  else if 0x700 ≤ off then some (shownU 16 ((d.ind h.i).z * 8))
  else none
/-- DIAG (Table 10.8). -/
def readDiag (d : Dev) (h : Hit) (off : Nat) : Option Nat :=
  let os := d.diag.os
  let pt := d.diag.pt
  let al := fun (q i : Nat) => tget false d.diag.alarm (ptKey q i)
  let cellAl := fun (k : Nat) => al 0 k || al 1 k || al 2 k
  let est := fun (q : Nat) => some (at' 16 (shownU 16 (((tget 0 d.diag.trend (ptKey q h.i) : Nat) : Rat) / 65536)) +
    tget 0 d.diag.est (ptKey q h.i))
  if off = 0x34 then
    some (at' 16 os.handle + at' 9 (b2n os.aborted) + at' 8 (b2n os.running) + d.osFaults.length)
  else if off = 0x38 then some (mapBits 32 (fun k => d.osFaults.contains k))
  else if off = 0x3C then some (mapBits 20 (fun k => d.osFaults.contains (32 + k)))
  else if off = 0x44 then
    some (match tget none d.diag.val (16 * d.fld 0x35 0x40 13 8 + d.fld 0x35 0x40 3 0) with
      | some v => at' 31 1 + ux 14 v
      | none => 0)
  else if off = 0x78 then
    some (at' 31 (b2n pt.running) + at' 30 (b2n pt.aborted) + at' 27 pt.mode + at' 20 pt.cell +
      at' 8 (max pt.h1.length (max pt.h2.length pt.h4.length)) + bits pt.valid 4 1 * 2)
  else if off = 0x7C then some (at' 16 pt.qual + min 255 pt.discarded)
  else if off = 0x80 then some (mapBits 32 cellAl)
  else if off = 0x84 then some (at' 16 (mapBits 4 (al 3)) + mapBits 16 (fun k => cellAl (32 + k)))
  else if 0xA0 ≤ off ∧ off < 0x170 then some (tget 0 d.diag.res h.i)
  else if 0x180 ≤ off ∧ off < 0x240 then est 0
  else if 0x240 ≤ off ∧ off < 0x300 then est 1
  else if 0x300 ≤ off ∧ off < 0x3C0 then est 2
  else if 0x3C0 ≤ off ∧ off < 0x400 then est 3
  else none
/-- NVM (Tables 17.19, 17.20). -/
def readNvm (d : Dev) (off : Nat) : Option Nat :=
  let n := d.nvm
  let g := fun (s : Option (Nat × Image)) => (s.map (·.1)).getD 0
  let crc := fun (s : Option (Nat × Image)) => (s.map (·.2.crc)).getD 0
  let len := fun (s : Option (Nat × Image)) => (s.map (·.2.len)).getD 0
  if off = 0x20 then
    some (at' 17 (b2n n.b.isSome) + at' 16 (b2n n.a.isSome) + at' 8 d.boot.nvmSlot + at' 2 d.nvmNext + at' 1 (b2n n.saving) +
      b2n n.writing.isSome)
  else if off = 0x24 then some (g n.a)
  else if off = 0x28 then some (g n.b)
  else if off = 0x2C then some (crc n.a)
  else if off = 0x30 then some (crc n.b)
  else if off = 0x34 then some (len n.a)
  else if off = 0x38 then some (len n.b)
  else if off = 0x3C then some (at' 16 n.wearB + n.wearA)
  else if off = 0x40 then some (at' 16 n.refused + n.done)
  else none

/-- The 64-bit quantity whose lower or upper register stands at an offset, and whether it is the upper one (R7). DESIGN
CHOICE [82]: stamps, counts and serial numbers are quantities; two registers of one bit map are two words, read without a
latch. -/
def pair (d : Dev) (now : Nat) (p off : Nat) : Option (Nat × Bool) :=
  let hit := fun (lo v : Nat) => if off = lo then some (v, false) else if off = lo + 4 then some (v, true) else none
  let orElse := fun (a b : Option (Nat × Bool)) => if a.isSome then a else b
  let q := unitAt p ((off - 0x40) / 0x20)
  let n := (off - 0x100) / 0x40
  if p = 0 then hit 0x24 Config.serial
  else if p = 2 then hit 0x30 d.hull.ts
  else if p = 3 then
    orElse (hit 0x28 now) (orElse (hit 0x30 (d.taiAt now)) (orElse (hit 0x38 d.locus.offset) (hit 0x58 (d.locus.lastEdge / 16))))
  else if 0x10 ≤ p ∧ p ≤ 0x14 then
    if 0x40 ≤ off ∧ off < 0x40 + 0x20 * (if p = 0x14 then 4 else 12) then hit (off / 0x20 * 0x20 + 8) (d.lk q).serial else none
  else if p = 0x20 then hit 0x48 d.lat.pidx
  else if p = 0x2A then hit 0x100 ((d.phasor.queue.head?.map (·.tai)).getD 0)
  else if p = 0x2B then hit 0x30 ((d.wave.fifo.head?.map (fun a => a.stamp / 16)).getD 0)
  else if p = 0x2C then orElse (hit 0x90 d.logNew) (hit 0x98 d.logOld)
  else if p = 0x30 then
    if off < 0x100 then hit 0x20 (d.rd 0x30 0x20 + 2 ^ 32 * d.rd 0x30 0x24)
    else if off < 0x300 then
      orElse (hit (0x110 + 0x40 * n) ((d.port! n).ts / 16)) (hit (0x12C + 0x40 * n) ((d.port! n).txTs / 16))
    else none
  else if p = 0x3C then hit 0x44 d.nvm.saveTs
  else none

/-- A register that reads from the state of its block. -/
def readLive (d : Dev) (now seq rq : Nat) (h : Hit) (off : Nat) : Option Nat :=
  let p := h.page
  if p = 0 then d.readDev off
  else if p = 1 then d.readPwr off
  else if p = 2 then d.readHull now off
  else if p = 3 then d.readLocus now off
  else if p = 4 then d.readHk off
  else if p = 5 then d.readTherm off
  else if p = 8 then d.readHost off
  else if p = 9 then d.readCmd seq off
  else if 0x10 ≤ p ∧ p ≤ 0x14 then d.readFacet h off
  else if 0x18 ≤ p ∧ p ≤ 0x1C then d.readChord h off
  else if p = 0x1E then d.readVertex h off
  else if p = 0x20 then d.readLattice off
  else if 0x21 ≤ p ∧ p ≤ 0x23 then d.readCtx now h off
  else if p = 0x24 then d.readLcode off
  else if p = 0x28 then d.readPrism rq h off
  else if p = 0x29 then d.readPresp h off
  else if p = 0x2A then d.readPhasor h off
  else if p = 0x2B then d.readWave off
  else if p = 0x2C then d.readCapture h off
  else if p = 0x30 then d.readStream h off
  else if p = 0x34 then d.readModel h off
  else if p = 0x35 then d.readDiag h off
  else if p = 0x3C then d.readNvm off
  else none

/-- What a register of BAR0 shows, without the latches of R7: 0 where the page is not implemented, its domain is off or
the offset is reserved (R404). -/
def regWord (d : Dev) (now seq rq p off : Nat) : Nat :=
  if !d.pageOn p then 0
  else if commonOff off then d.readCommon p off
  else
    match findReg p off with
    | none => 0
    | some h =>
      match d.pair now p off with
      | some (v, up) => if up then hi32 v else lo32 v
      | none =>
        match d.readLive now seq rq h off with
        | some v => v
        | none => d.readHeld h (d.rd p off)

end Dev

/-- The number of a requester's latches (R7). -/
def rqNo (rq : Req) : Nat := if rq == .qspi then 1 else 0
/-- The latch of the upper half at an address (R7), held as the value plus 1. -/
def latchKey (rq : Req) (p off : Nat) : Nat := rqNo rq * 2 ^ 20 + p * 4096 + off

namespace Dev

/-- Records the words that a read answered its requester. -/
def answered (d : Dev) (rq : Req) (l : List Nat) : Dev :=
  d.modBus (fun b => if rq == .qspi then { b with respQspi := l } else { b with respPcie := l })
/-- Records the one word that a read answered its requester. -/
def answer (d : Dev) (rq : Req) (v : Nat) : Dev := d.answered rq [v]
/-- CSEL.K moves on after a read of CDATA of a context; ADDR after one of LCODE:DATA, while the page is unlocked; TAP after one of
RD_DATA, wrapping after N − 1 (R200, R215, R292). Where no bank answers there is no N: TAP stays. -/
def readNext (d : Dev) (p off : Nat) : Dev :=
  if p = 0x20 && off = 0x64 then (if d.fld 0x20 0x60 13 8 = 0 then d else d.cselNext)
  else if p = 0x24 && off = 0x24 then (if (d.pg 0x24).unlocked then d.lcodeNext else d)
  else if p = 0x29 && off = 0x104 then
    let n := (d.respOf (d.flag 0x29 0x100 20) (d.fld 0x29 0x100 19 16)).n
    if n = 0 then d else d.wrFld 0x29 0x100 8 0 ((d.fld 0x29 0x100 8 0 + 1) % n)
  else d
/-- One register read: its value, and the device after it. A lower half latches the upper one and an upper half that
finds the latch consumes it (R7); OUT[k] latches its TS64 (R292); CDATA, LCODE:DATA and RD_DATA move on. Each read draws
a fresh free value [5]. -/
def busRead (d : Dev) (now seq : Nat) (rq : Req) (p off : Nat) : Nat × Dev :=
  let v := d.regWord now seq (rqNo rq) p off
  let d1 := { d with free := d.free + 1 }
  if !d.pageOn p || commonOff off || (findReg p off).isNone then (v, d1)
  else
    match d.pair now p off with
    | some (q, false) =>
      (v, d1.modBus (fun b => { b with latch := tset 0 b.latch (latchKey rq p (off + 4)) (hi32 q + 1) }))
    | some (_, true) =>
      let l := tget 0 d.bus.latch (latchKey rq p off)
      (if l = 0 then v else l - 1, d1.modBus (fun b => { b with latch := tset 0 b.latch (latchKey rq p off) 0 }))
    | none =>
      if p = 0x28 && decide (0x100 ≤ off ∧ off < 0x300) && off % 0x20 == 0x10 then
        let t := (d.chan ((off - 0x100) / 0x20)).out.stamp / 16
        let put := fun (m : Tbl Nat) => tset 0 (tset 0 m (latchKey rq p (off + 4)) (lo32 t)) (latchKey rq p (off + 8)) (hi32 t)
        (v, d1.modBus (fun b => { b with latch := put b.latch }))
      else (v, d1.readNext p off)

/-- The addressed bytes of a register's word (R398). -/
def addressed (v first n : Nat) : Nat := v / 256 ^ first % 256 ^ n
/-- One access of BAR0: what it answers, lower address first, and the device after it. A narrower read is a read of the
aligned register that answers its addressed bytes; a 64-bit read is two register reads, the lower address first (R398). -/
def accessRead (d : Dev) (now seq : Nat) (rq : Req) (p off : Nat) (acc : Access) : List Nat × Dev :=
  let r := d.busRead now seq rq p off
  match acc with
  | .bytes first n => ([addressed r.1 first n], r.2)
  | .word => ([r.1], r.2)
  | .pair =>
    let u := r.2.busRead now seq rq p (off + 4)
    ([r.1, u.1], u.2)

end Dev

/-- A read as a command: what it answers is recorded for its requester. -/
def readRow (s : State) (rq : Req) (p off : Nat) (acc : Access := .word) : Host.Outcome State Fault Refusal :=
  onDev s (fun t d =>
    let r := d.accessRead t s.ring.seq rq p off acc
    r.2.answered rq r.1)

/-- What a BAR2 offset reads, other than SUBMIT (Table 16.8). -/
def bar2Word (s : State) (off : Nat) : Nat :=
  if !s.dev.domOn 1 then 0
  else if bar2Kind off == .desc then (tget 0 s.dev.bus.desc off).toNat
  else if 0x1000 ≤ off ∧ off < 0x1400 ∧ off % 4 = 0 then
    let e := tget {} s.ring.cqe ((off - 0x1000) / 16)
    let w := off / 4 % 4
    if w = 0 then e.handle + at' 16 e.status + at' 24 e.op
    else if w = 1 then e.result
    else if w = 2 then lo32 e.ts else hi32 e.ts
  else if off = 0x1400 then at' 8 (b2n s.ring.phase) + s.ring.tail
  else if off = 0x1404 then s.ring.head
  else if bar2Kind off == .msix then s.dev.msixWord (off - 0x8000)
  else if off = 0x9000 then s.dev.bus.pba
  else 0

/-- LOWER_HALF_READ (R7, R398). -/
def execLowerHalfRead (rq : Req) (page : Nat) (at_ : ReadAt) (s : State) : Host.Outcome State Fault Refusal :=
  readRow s rq page at_.off at_.acc
/-- UPPER_HALF_READ (R7, R398). -/
def execUpperHalfRead (rq : Req) (page : Nat) (at_ : ReadAt) (s : State) : Host.Outcome State Fault Refusal :=
  readRow s rq page at_.off at_.acc
/-- A read of PRISM:OUT[k] (R292). -/
def execOutRead (rq : Req) (k : Nat) (s : State) : Host.Outcome State Fault Refusal := readRow s rq 0x28 (0x110 + 0x20 * k)
/-- A read of LATTICE:CDATA (R215). -/
def execCdataRead (rq : Req) (s : State) : Host.Outcome State Fault Refusal := readRow s rq 0x20 0x64
/-- A read of LCODE:DATA (R200). -/
def execLcodeDataRead (rq : Req) (s : State) : Host.Outcome State Fault Refusal := readRow s rq 0x24 0x24
/-- A read of PRESP:RD_DATA (R292). -/
def execRdDataRead (rq : Req) (s : State) : Host.Outcome State Fault Refusal := readRow s rq 0x29 0x104

end Sys2Proof.Machine
end

