-- ==== Sys2Proof/WellFormed.lean ====
section
/-! DEFINITION. Which commands a sender can issue: every index in the range the spec gives it and every value in
its width. The meanings are total all the same: an index that names nothing leaves the state as it is. -/

namespace Sys2Proof

/-- A register address: a word of a BAR0 page, or of BAR2 (R398). -/
def Target.wf : Target → Bool
  | .bar0 page off => decide (page < 4096) && decide (off < 4096) && off % 4 == 0
  | .bar2 off => decide (off < 65536) && off % 4 == 0

/-- An IRIG-B frame whose BCD fields are in their ranges (R46, R47). -/
def IrigFrame.wf (f : IrigFrame) : Bool :=
  decide (f.sec ≤ 60) && decide (f.min < 60) && decide (f.hour < 24) && decide (1 ≤ f.day) && decide (f.day ≤ 366) &&
    decide (f.edge < 2 ^ 68) &&
    (match f.cf with
      | some c => decide (c.tq < 16)
      | none => true)

/-- A transfer's words fit 32 bits. -/
def Xfer.wf : Xfer → Bool
  | .ok ws _ => ws.all (fun w => decide (w < 2 ^ 32))
  | .pcieErr _ _ => true
  | .eccErr _ _ => true

/-- A mean over 1 to 65,536 periods, none longer than the 200 ns that are a loss (R268). -/
def EdgeMean.wf (m : EdgeMean) : Bool := decide (0 < m.n) && decide (m.n ≤ 65536) && decide (m.span ≤ 3200 * m.n)
/-- A link's node has the position (R93). -/
def posOk (k pos : Nat) : Bool := decide (k < 52) && decide (pos < if k < 48 then 12 else 2)
/-- An event word's operands (Table 3.10): link, 12-bit age, edge time, and whether its code bears the POS (Table 4.4). -/
def evOk (k : Nat) (pos : Bool) (age edge : Nat) : Bool :=
  decide (k < 52) && pos && decide (age < 4096) && decide (edge < 2 ^ 68)
/-- A POS of an injection (Table 10.2); a leg node has step 2 only. -/
def testPos (k pos : Nat) : Bool := if k < 48 then [0, 2, 4, 6, 8, 10, 12].contains pos else pos == 0

/-- An access of R398: part of one aligned register, a register, or two at an 8-byte-aligned address; QSPI reads whole
words (R400). -/
def Access.wf : Access → Req → Nat → Bool
  | .word, _, _ => true
  | .bytes first n, rq, _ => rq == .pcie && decide (0 < n ∧ n < 4 ∧ first + n ≤ 4)
  | .pair, rq, off => rq == .pcie && off % 8 == 0
/-- A rate and width of the PCIe link: Gen1 to Gen3, x1 or x2 (R397, Table 16.14). -/
def linkOk (rate width : Nat) : Bool := decide (1 ≤ rate ∧ rate ≤ 3) && decide (1 ≤ width ∧ width ≤ 2)

/-- The command is one a sender can issue. -/
def Instr.wf : Instr → Bool
  | .registerWrite _ t _ _ => t.wf
  | .lowerHalfRead rq page a => (Target.bar0 page a.off).wf && a.acc.wf rq a.off
  | .upperHalfRead rq page a => (Target.bar0 page a.off).wf && a.acc.wf rq a.off
  | .outRead _ k => decide (k < 16)
  | .cdataRead _ => true
  | .lcodeDataRead _ => true
  | .rdDataRead _ => true
  | .pageKey _ page _ => decide (page < 4096)
  | .violClr _ _ => true
  | .evtMaskWrite _ page _ => decide (page < 4096)
  | .evtPendClear _ page _ => decide (page < 4096)
  | .qspiFrame opcode addr ws nread _ =>
    decide (opcode < 256) && decide (addr < 2 ^ 24) && decide (ws.length ≤ 64) && decide (nread ≤ 64)
  | .submit port => decide (port < 8)
  | .completion => true
  | .cqHead _ _ => true
  | .unconf _ s => decide (s < 4)
  | .realign _ link _ => decide (link < 52)
  | .trimWrite _ link p _ => posOk link p
  | .deadCfgWrite _ x _ => decide (x < 5)
  | .ctxEnable _ c _ => decide (1 ≤ c) && decide (c ≤ 63)
  | .ctxDisable _ c _ => decide (1 ≤ c) && decide (c ≤ 63)
  | .reqOpen _ c _ => decide (1 ≤ c) && decide (c ≤ 63)
  | .reqClose _ c _ => decide (1 ≤ c) && decide (c ≤ 63)
  | .reqIdle _ c _ => decide (1 ≤ c) && decide (c ≤ 63)
  | .cdataWrite _ _ => true
  | .lcodeDataWrite _ _ => true
  | .tgtWrite _ _ => true
  | .periodWrite _ _ => true
  | .loopLatWrite _ _ => true
  | .srcChange _ _ => true
  | .set _ _ => true
  | .clr _ _ => true
  | .force _ => true
  | .fbrk _ => true
  | .kick _ _ => true
  | .consent _ _ => true
  | .causeClear _ _ => true
  | .rstCtrl _ _ => true
  | .warmReset => true
  | .pwrReq _ _ => true
  | .withdraw _ s _ => decide (s < 4)
  | .freeze _ _ => true
  | .channelStart _ k => decide (k < 16)
  | .channelStop _ k => decide (k < 16)
  | .waveRun _ => true
  | .captureEn _ => true
  | .hostTrigger _ => true
  | .rel _ _ => true
  | .pop _ => true
  | .arrPop _ => true
  | .resync _ n => decide (n < 8)
  | .rxEnSet _ n => decide (n < 8)
  | .rxEnClear _ n => decide (n < 8)
  | .ageFullWrite _ k _ => decide (k < 48)
  | .cmdArm => true
  | .armed _ => true
  | .cmdDisarm => true
  | .cmdTimeSet => true
  | .cmdCalibrate => true
  | .calibrationEnd target _ => decide (1 ≤ target) && decide (target ≤ 3)
  | .calibrateTimeout => true
  | .cmdPrecharge => true
  | .prechargeTimeout slot => decide (slot < 32)
  | .cmdOffstateRun => true
  | .cmdPilotRun => true
  | .cmdCtxLoad => true
  | .ctxLoadReadEnd c x => decide (1 ≤ c) && decide (c ≤ 63) && x.wf
  | .cmdBankLoad => true
  | .bankLoadEnd b x => decide (b < 8) && x.wf
  | .cmdRespSwap => true
  | .cmdCaptureRead => true
  | .captureReadEnd slot x => decide (slot < 32) && x.wf
  | .cmdStoreWrite => true
  | .storeWriteEnd x => x.wf
  | .cmdNvmWrite => true
  | .writeEnd _ => true
  | .ppsEdge edge => decide (edge < 2 ^ 68)
  | .irigFrame f => f.wf
  | .holdover => true
  | .timeSetTimeout => true
  | .tqChg => true
  | .leapSecondStart => true
  | .leapDone => true
  | .leapOccurredEnd => true
  | .refclkLoss => true
  | .refclkReturn => true
  | .downstreamSubframe k n j => decide (k < 52) && decide (2 ≤ n) && decide (j < 384)
  | .blockBoundary n => decide (2 ≤ n)
  | .upstreamSubframe k edge pre word _ _ _ _ =>
    decide (k < 52) && decide (edge < 2 ^ 68) && decide (pre < 3) && decide (word < 2 ^ 24)
  | .linkLoss k => decide (k < 52)
  | .sample k qty _ value m =>
    decide (k < 52) && decide (qty < 8) && decide (-131072 ≤ value) && decide (value < 131072) && decide (0 < m)
  | .echo k tag turn edge => decide (k < 52) && decide (tag < 16) && decide (turn < 2 ^ 18) && decide (edge < 2 ^ 68)
  | .upstreamBlockStatus k edge => decide (k < 52) && decide (edge < 2 ^ 68)
  | .helloId k ty rev => decide (k < 52) && decide (ty < 16) && decide (rev < 65536)
  | .serialLo k v => decide (k < 52) && decide (v < 2 ^ 32)
  | .serialHi k v => decide (k < 52) && decide (v < 2 ^ 32)
  | .ack k ty seq => decide (k < 52) && decide (ty < 16) && decide (seq < 16)
  | .swdlyOn k pos v => posOk k pos && decide (v < 16384)
  | .swdlyOff k pos v => posOk k pos && decide (v < 16384)
  | .supplyV k pos v => posOk k pos && decide (v < 16384)
  | .testResult k pos v => decide (k < 52) && testPos k pos && decide (-8192 ≤ v) && decide (v < 8192)
  | .injectionTimeout k => decide (k < 52)
  | .chopTime k v => decide (k < 52) && decide (v < 2 ^ 18)
  | .bypState k v => decide (k < 52) && decide (v < 4)
  | .desat k pos age edge => evOk k (posOk k pos) age edge
  | .interlock k pos age edge => evOk k (posOk k pos && pos % 2 == 0 && decide (pos < 4)) age edge
  | .interlockExpiry k => decide (k < 52)
  | .uvlo k pos age edge => evOk k (posOk k pos) age edge
  | .supplyLow k pos age edge => evOk k (posOk k pos) age edge
  | .dcOv k pos age edge => evOk k (pos == 12) age edge
  | .chop k pos age edge => evOk k (pos == 13) age edge
  | .nodeOt k pos age edge => evOk k (pos == 15) age edge
  | .bypDone k pos age edge => evOk k (pos == 14) age edge
  | .bypFail k pos age edge => evOk k (pos == 14) age edge
  | .preDone k pos age edge => evOk k (pos == 12) age edge
  | .preFail k pos age edge => evOk k (pos == 12) age edge
  | .cmdRej k pos age edge => evOk k (pos == 15) age edge
  | .testDone k pos age edge => evOk k (testPos k pos) age edge
  | .unlistedCode k code pos age edge =>
    decide (k < 52) && decide (code < 64) && decide (pos < 16) && decide (age < 4096) && decide (edge < 2 ^ 68)
  | .inputLatch c e i => decide (1 ≤ c) && decide (c ≤ 63) && decide (e < 16) && decide (i < 8)
  | .instanceEnd c e => decide (1 ≤ c) && decide (c ≤ 63) && decide (e < 16)
  | .commit _ mis => mis.all (fun x => decide (x.unit < 52))
  | .cellStart u => decide (u < 52)
  | .restEntry u => decide (u < 48)
  | .retreatReload u => decide (u < 52)
  | .vertexLatch n => decide (2 ≤ n)
  | .vertexPublish n => decide (2 ≤ n)
  | .ageingSave => true
  | .saved _ => true
  | .pilotWindowEnd => true
  | .pilotRunEnd => true
  | .clockAcquired pbar => pbar.wf
  | .clkLoss => true
  | .clkRange => true
  | .channelSettleStart x => decide (x.k < 16) && decide (x.line.length = 1023)
  | .cicOutput k _ bs => decide (k < 16) && decide (0 < bs.length)
  | .firOutput k _ _ pbar => decide (k < 16) && pbar.wf
  | .outputPublish k => decide (k < 16)
  | .phasorFrame _ k => decide (k < 240)
  | .waveOutput _ _ pbar bs => pbar.wf && decide (bs.length = 4) && bs.all (fun b => decide (b < 65536))
  | .extTrigger edge => decide (edge.ticks < 2 ^ 68)
  | .triggerPulseEnd => true
  | .recordClose ring => ring == 0 || ring == 1 || ring == 3
  | .rxFrame n edge w1 w2 _ _ _ _ =>
    decide (n < 8) && decide (edge < 2 ^ 68) && decide (w1.word < 2 ^ 24) && decide (w2.word < 2 ^ 24)
  | .rxBlock n hi lo fine => decide (n < 8) && decide (hi < 2 ^ 32) && decide (lo < 2 ^ 32) && decide (fine < 16)
  | .rxLoss n => decide (n < 8)
  | .muteFadeEnd n sub => decide (n < 8) && (sub == 1 || sub == 2)
  | .txBlock n edge => decide (n < 8) && decide (edge < 2 ^ 68)
  | .housekeepingRound _ h =>
    decide (h.die.length = 16) && decide (h.ntc.length = 4) && decide (h.sup.length = 6) && decide (h.relock < 16)
  | .domainOn pd => decide (1 ≤ pd) && decide (pd < 10)
  | .domainOff pd => decide (1 ≤ pd) && decide (pd < 10)
  | .powerOnReset => true
  | .powerOnResetRelease _ => true
  | .hullArmed => true
  | .safeEntry _ => true
  | .nvmLoadEnd => true
  | .selfTestEnd fail => decide (fail < 256)
  | .thermalShutdown => true
  | .safeN => true
  | .wdog violations => decide (0 < violations)
  | .hostwd => true
  | .consentExpiry => true
  | .pcieReset => true
  | .linkDown => true
  | .linkUp rate width => linkOk rate width
  | .safeNRelease => true
  | .tsdLiveClear => true
  | .uErr k _ => decide (k < 52)
  | .configurationWrite _ _ _ => true

end Sys2Proof
end

