-- ==== Sys2Proof/Machine/Host.lean ====
section
/-! DEFINITION. The host interface's own commands: QSPI frames, submission and completion, PCIe resets, the link and
the configuration space (chapter 16). -/

namespace Sys2Proof.Machine

/-- The widths in bits of a command's arguments, in table order; none for a reserved opcode (Table 16.7 and the
argument table of the owning chapter). -/
def argWidths (op : Nat) : Option (List Nat) :=
  match op with
  | 0x01 => some []
  | 0x02 => some [8]
  | 0x03 => some [64, 64, 32]
  | 0x04 => some [8]
  | 0x08 => some [32, 16, 15, 16]
  | 0x09 => some [32, 16, 4]
  | 0x0A => some [8, 8, 16, 16, 16, 8]
  | 0x10 => some [8, 8, 8, 8, 64]
  | 0x11 => some [8, 16, 8, 16, 8, 64]
  | 0x12 => some [8, 8, 16]
  | 0x18 => some [8, 8, 64, 32, 32, 64]
  | 0x19 => some [32, 32, 64]
  | 0x20 => some [64, 32]
  | _ => none
/-- The container of an argument in bytes (R407). -/
def container (w : Nat) : Nat := if w ≤ 8 then 1 else if w ≤ 16 then 2 else if w ≤ 32 then 4 else 8
/-- The largest value of each byte of the arguments from a descriptor offset on; 0 for a byte that alignment leaves
unused (R407). -/
def argMax : Nat → List Nat → List Nat
  | _, [] => []
  | off, w :: r =>
    let c := container w
    let start := (off + c - 1) / c * c
    List.replicate (start - off) 0 ++ (List.range c).map (fun i => 2 ^ min 8 (w - 8 * i) - 1) ++ argMax (start + c) r
/-- The first byte of a descriptor that breaks the layout rules, if one does (R407). -/
def descBad (bytes : List Nat) : Option Nat :=
  match argWidths (bytes.headD 0) with
  | none => some 0
  | some ws =>
    let m := [255, 1, 0, 0, 0, 0, 0, 0] ++ argMax 8 ws
    ((List.range 56).filter (fun i => decide (m.getD i 0 < bytes.getD i 0))).head?
/-- The 56 bytes of a port's descriptor (R407). -/
def Dev.descBytes (d : Dev) (p : Nat) : List Nat :=
  (List.range 14).flatMap (fun i => bytesLE 4 (tget 0 d.bus.desc (0x40 * p + 4 * i)).toNat)

namespace Dev

/-- What a check that is due at submission finds (R114, R217, R258, R316, R360, R430). -/
def earlyCheck (d : Dev) (s : Slot) : Nat :=
  if s.op = 0x01 then b2n d.diag.os.running
  else if s.op = 0x08 then b2n ((preMask s).any d.capTempBad)
  else if s.op = 0x10 then
    let st := (d.cx (argLE s 0 1)).st
    b2n (st == .closing || st == .closed || st == .fault)
  else if s.op = 0x18 then d.logNew
  else if s.op = 0x20 then b2n (!d.therm.nvmOk) + 2 * b2n d.nvm.saving
  else 0
/-- An accepted submission: its slot is filled, and a record that a readout names is locked (R312, R409). One whose
descriptor breaks R407 ends BAD_ARG. DESIGN CHOICE [29]: at its submission. A CMD_NVM_WRITE that ends so leaves its slot unmarked
(R415). -/
def accept (d : Dev) (now n handle : Nat) (bytes : List Nat) : Dev :=
  let bad := descBad bytes
  let s0 : Slot := { handle := handle, op := bytes.headD 0, notify := bit (bytes.getD 1 0) 0, args := bytes.drop 8 }
  let s := { s0 with early := d.earlyCheck s0, begun := bad.isSome }
  let d := if s.op = 0x18 && bad.isNone then d.readLock (crPart s) (crRec s) else d
  let d := d.modBus (fun b => { b with slots := tset none b.slots n (some s), waiting := b.waiting ++ [n] })
  match bad with
  | some o => (if s.op = 0x20 then d.setSlot d.nvmNext none else d).endCmd now n stBadArg o
  | none => d

end Dev

/-- CMD:SEQ after a submission (R409). -/
def seqNext (q : Nat) : Nat := if q = 2047 then 1 else q + 1
/-- The lowest-numbered free slot (R409). -/
def Dev.freeSlot (d : Dev) : Option Nat := (List.range 32).find? (fun n => (d.slot n).isNone)
/-- A submission is refused for the stage (R408). -/
def Dev.stageBars (d : Dev) (op : Nat) : Bool := !d.readyRun && !(d.stage == .cooldown && op == 0x18)
/-- SUBMIT (R408, R409, Table 16.5). -/
def submitTo (s : State) (port : Nat) : State :=
  let d := s.dev
  if !d.domOn 1 then { s with dev := d.answer .pcie 0 }
  else
    let bytes := d.descBytes port
    let refuse := fun (r : Nat) =>
      ((d.modBus (fun b => { b with refused := sat1 16 b.refused })).raise 9 1).answer .pcie (r * 65536)
    if d.stageBars (bytes.headD 0) then { s with dev := refuse 2 }
    else
      match d.freeSlot with
      | none => { s with dev := refuse 1 }
      | some n =>
        let handle := s.ring.seq * 32 + n
        { s with
          ring := { s.ring with seq := seqNext s.ring.seq }
          dev := (d.accept s.now n handle bytes).answer .pcie handle }
/-- The entry of an ended command (Table 16.6). -/
def entryOf (r : Ring) (sl : Slot) (e : Nat × Nat × Nat) : CqEntry :=
  { handle := sl.handle, status := e.1, op := b2n r.phase * 128 + sl.op % 128, result := e.2.1 % 2 ^ 32, ts := e.2.2 }
/-- The ring after one more entry (R412). -/
def Ring.put (r : Ring) (e : CqEntry) : Ring :=
  { r with
    cqe := tset {} r.cqe r.tail e, tail := (r.tail + 1) % 64, unread := r.unread + 1
    phase := if r.tail = 63 then !r.phase else r.phase }
/-- COMPLETION: the entry of the command that ended first is written while fewer than 63 are unread, and its slot is
free (R409, R412). -/
def complete (s : State) : State :=
  match s.dev.bus.ended with
  | [] => s
  | n :: rest =>
    if 63 ≤ s.ring.unread then s
    else
      match s.dev.slot n with
      | some sl =>
        match sl.ended with
        | some e =>
          let d := s.dev.modBus (fun b => { b with ended := rest, slots := tset none b.slots n none })
          { s with ring := s.ring.put (entryOf s.ring sl e), dev := if sl.notify then d.raise 9 0 else d }
        | none => { s with dev := s.dev.modBus (fun b => { b with ended := rest }) }
      | none => { s with dev := s.dev.modBus (fun b => { b with ended := rest }) }

/-- QSPI read and write opcodes (R400). -/
def qspiRead (op : Nat) : Bool := op == 0x0B || op == 0xEB
def qspiWrite (op : Nat) : Bool := op == 0x02 || op == 0x38

namespace Dev

/-- A word of the PCIe configuration header that R2 gives: the identifiers, the revision from CHIP_ID.MAJOR and MINOR
with the class code, and the subsystem identifiers. PRESUMED [81]: offsets 0x00 and 0x2C, and the fields' places in the
words, are those of the PCIe header; R2 gives 0x08 for the revision. The other words are as PCIe defines them. -/
def configWord (d : Dev) (off : Nat) : Option Nat :=
  let chip := (d.readDev 0x20).getD 0
  if off = 0 then some (0x6348 * 2 ^ 16 + 0x1E5A)
  else if off = 0x08 then some (0x118000 * 2 ^ 8 + bits chip 15 12 * 16 + bits chip 11 8)
  else if off = 0x2C then some d.bus.subsys
  else none

/-- The words of a read frame: the address advances by 4 after each (R400). -/
def qspiReads : Nat → Nat → Dev → Nat → Nat → List Nat × Dev
  | 0, _, d, _, _ => ([], d)
  | n + 1, a, d, now, seq =>
    let r := d.busRead now seq .qspi (a / 4096) (a % 4096)
    let q := qspiReads n ((a + 4) % 2 ^ 24) r.2 now seq
    (r.1 :: q.1, q.2)
/-- The words of a write frame; a last word that CS_N cuts short is a partial write (R400). -/
def qspiWrites : List Word → Bool → Nat → Dev → Nat → Dev
  | [], _, _, d, _ => d
  | w :: r, cut, a, d, now =>
    qspiWrites r cut ((a + 4) % 2 ^ 24) (d.busWrite now .qspi (a / 4096) (a % 4096) w.toNat (!(r.isEmpty && cut))) now
/-- A QSPI frame (R400, R401). The port answers while PD1 is on. -/
def doQspi (d : Dev) (now seq op addr : Nat) (words : List Word) (nread : Nat) (cut : Bool) : Dev :=
  if !d.domOn 1 then d
  else if qspiRead op then
    let r := qspiReads nread addr d now seq
    r.2.modBus (fun b => { b with respQspi := r.1 })
  else if qspiWrite op then qspiWrites words cut addr d now
  else (d.modBus (fun b => { b with qspiErr := sat1 16 b.qspiErr })).raise 8 2

/-- A count of bytes moved before a transfer broke off: free, at most the length [5]. -/
def freeBytes (d : Dev) (len : Nat) : Nat × Dev :=
  let (i, d) := d.drawFree
  (Config.freeNat i % (len + 1), d)
/-- Commands that are moving data to or from host memory complete HW_FAULT (R399). Whether the image of a running
CMD_NVM_WRITE is still being read is free [5]. -/
def xferFail (d : Dev) (now : Nat) : Dev :=
  let d := d.each allCtx (fun d c =>
    match (d.cx c).load with
    | some (n, false) =>
      if (d.slot n).any (fun s => argLE s 3 1 == 0) then
        let (b, d) := d.freeBytes (2 * ((d.slot n).map (fun s => argLE s 2 1)).getD 0)
        d.doCtxLoadRead now c (.pcieErr b)
      else d
    | _ => d)
  let d := d.each (List.range 8) (fun d k =>
    match tget none d.prism.loading k with
    | some (n, taps, _, _) =>
      if (d.slot n).any (fun s => argLE s 8 1 == 0) then
        let (b, d) := d.freeBytes (4 * taps)
        d.doBankLoadEnd now k (.pcieErr b)
      else d
    | none => d)
  let d := d.cap.reads.foldl (fun d r =>
    let (b, d) := d.freeBytes r.n
    d.doCaptureReadEnd now r.slot (.pcieErr b)) d
  let d := d.cap.storeWr.foldl (fun d w =>
    let (b, d) := d.freeBytes w.2.2
    d.doStoreWriteEnd now (.pcieErr b)) d
  match d.nvm.writing with
  | none => d
  | some (_, n) =>
    let (i, d) := d.drawFree
    if Config.freeBool i then
      let (b, d) := d.freeBytes (((d.slot n).map (fun s => argLE s 8 4)).getD 0)
      d.doWriteEnd now (.pcieErr b)
    else d
/-- A PCIe or function-level reset: the PCIe logic and the MSI-X table (R399, Table 15.4). -/
def doPcieReset (d : Dev) (now : Nat) : Dev :=
  if !d.domOn 1 then d
  else
    (d.modBus (fun b => { b with
      pcieRst := sat1 16 b.pcieRst, busMaster := false, msixEn := false, msixMask := false, msix := [], pba := 0 })).xferFail now
/-- The messages due at the end of an interval in which none could be sent (R417). -/
def resend (d : Dev) : Dev :=
  d.pbaFlush.each (List.range 64) (fun d p => if d.pageOn p && d.pend p != 0 then d.pageMsix p else d)
/-- LINK_DOWN, which is a PCIe reset (R399, Tables 15.4 and 16.14). DEDUCED [30]: what falls with the link. -/
def doLinkDown (d : Dev) (now : Nat) : Dev :=
  if d.bus.linkUp then ((d.modBus (fun b => { b with linkUp := false, linkWr := 0 })).doPcieReset now).raise 8 1 else d
/-- LINK_UP at Gen1 to Gen3 and one or two lanes; the device trains to no other (R397, R417, Table 16.14). -/
def doLinkUp (d : Dev) (rate width : Nat) : Dev :=
  if !d.domOn 1 || d.bus.linkUp || !linkOk rate width then d
  else
    let d := d.modBus (fun b => { b with linkUp := true, linkWr := rate + width * 256 })
    (if d.bus.msixEn then d.resend else d).raise 8 0
/-- CONFIGURATION_WRITE: MSI-X Enable, the function mask and bus mastering (R399, R417). -/
def doConfig (d : Dev) (now : Nat) (en mask bm : Bool) : Dev :=
  if !d.domOn 1 then d
  else
    let was := d.bus.msixEn
    let stop := d.bus.busMaster && !bm
    let d := d.modBus (fun b => { b with msixEn := en, msixMask := mask, busMaster := bm })
    let d := if stop then d.xferFail now else d
    if d.bus.linkUp && en then (if was then d.pbaFlush else d.resend) else d

end Dev

/-- QSPI_FRAME (R400, R401). -/
def execQspiFrame (opcode addr : Nat) (words : List Word) (nread : Nat) (cut : Bool) (s : State) :
    Host.Outcome State Fault Refusal :=
  onDev s (fun t d => d.doQspi t s.ring.seq opcode addr words nread cut)
/-- SUBMIT (R408, R409). -/
def execSubmit (port : Nat) (s : State) : Host.Outcome State Fault Refusal := .next (submitTo s port)
/-- COMPLETION (R412). -/
def execCompletion (s : State) : Host.Outcome State Fault Refusal := .next (complete s)
/-- PCIE_RESET (R399). -/
def execPcieReset (s : State) : Host.Outcome State Fault Refusal := onDev s (fun t d => d.doPcieReset t)
/-- LINK_DOWN (R399). -/
def execLinkDown (s : State) : Host.Outcome State Fault Refusal := onDev s (fun t d => d.doLinkDown t)
/-- LINK_UP (R417). -/
def execLinkUp (rate width : Nat) (s : State) : Host.Outcome State Fault Refusal := onDev s (fun _ d => d.doLinkUp rate width)
/-- CONFIGURATION_WRITE (R417). -/
def execConfigurationWrite (msixEn msixMask busMaster : Bool) (s : State) : Host.Outcome State Fault Refusal :=
  onDev s (fun t d => d.doConfig t msixEn msixMask busMaster)

end Sys2Proof.Machine
end

