-- ==== Sys2Proof/Machine/Stage.lean ====
section
/-! DEFINITION. The stages (chapter 15): start, self-test, arming and disarming, COOLDOWN, the housekeeping round as a
whole, and the resets. -/

namespace Sys2Proof.Machine
namespace Dev

/-- Entry to AWARE: a new NVM load and self-test are due, and until the first load has written them the pages of PD0 and
PD1 other than HULL and PWR are not READY (R363, R369, R370, R373). -/
def enterAware (d : Dev) (now why : Nat) : Dev :=
  let d := (d.setStage now .aware why).modBoot (fun b => { b with loaded := false, untested := 0, stFail := 0, memDue := false, nvmOn := 0 })
  let d := if d.boot.firstLoad then d else d.setReady (basePages.filter (fun p => p != 2)) false
  d.setReady [1] true
/-- PD1 turns on with the entry to the first stage after RESET (Table 14.4); the pages are READY but PWR (R363, R370). -/
def hostOn (d : Dev) : Dev :=
  (d.modPwr (fun p => { p with on := setBit p.on 1 true })).setReady (basePages.filter (fun p => p != 1)) true
/-- SAFE_ENTRY (R369): the checks failed and the stage stays, or they passed; a shutdown decided meanwhile leads to
COOLDOWN. DEDUCED [56]: a failed check keeps RESET in that case too. -/
def doSafeEntry (d : Dev) (now : Nat) (ok : Bool) : Dev :=
  if d.stage != .reset || d.boot.por || !ok then d
  else if d.hull.tsdReset then (d.hostOn.modHull (fun h => { h with tsdReset := false })).cooldown now
  else d.hostOn.setStage now .safe 0

/-- Self-test items that have a domain: it is tested only where that is on (R372, Table 15.3). -/
def itemOn (d : Dev) (i : Nat) : Bool :=
  if i = 2 then d.domOn 3 else if i = 3 then d.domOn 4 else if i = 4 then d.domOn 2 else if i = 5 then d.domOn 5
  else if i = 6 then d.domOn 7 else true
/-- The capture memory failed its test: PD7 is turned off (Table 15.3). -/
def memFail (d : Dev) (now : Nat) : Dev :=
  (d.modBoot (fun b => { b with stFail := setBit b.stFail 6 true })).ownOff now 7
/-- SELF_TEST_END (R369, R372, R373). -/
def doSelfTest (d : Dev) (now fail : Nat) : Dev :=
  if d.stage == .aware && d.boot.loaded then
    let f := ofBits ((onBits 8 fail).filter d.itemOn)
    if setBit f 6 false = 0 then (d.when (bit f 6) (fun d => d.memFail now)).setStage now .ready 7
    else
      let d := (d.modBoot (fun b => { b with stFail := f })).setStage now .halt 8
      d.each [9, 8, 7, 6, 5, 4, 3, 2] (fun d pd => d.ownOff now pd)
  else if d.readyRun && d.boot.memDue then
    let d := d.modBoot (fun b => { b with memDue := false })
    if bit fail 6 && d.domOn 7 then d.memFail now else d
  else d

/-- Domains that arming needs: PD2 and those DOMAINS_REQ names. -/
def armDomains (d : Dev) : List Nat := 2 :: (if bit d.domainsReq 0 then [3] else []) ++ (if bit d.domainsReq 1 then [4] else [])
/-- The off-state results let the device arm (R258). -/
def armGate (d : Dev) : Bool :=
  !d.flag 0x35 0x20 16 ||
    (let noLeg := (List.range 4).all (fun n => !d.linked (48 + n))
     (d.strings.all (fun s => (d.strCells s).all (fun k => (List.range 7).all (fun n =>
        d.osRes k (n + 1) == 1 || (n == 6 && d.osRes k 7 == 0 && noLeg))))) &&
      d.legs.all (fun k => d.osRes k 2 == 1))
/-- A cell counts for arming (R391). -/
def armCell (d : Dev) (k : Nat) : Bool :=
  let l := d.lk k
  l.st == .standby && l.aligned && l.crcMatch && d.holdOf k == .none
/-- The contexts that a V_CTX, DAB_CTX or LEG_SRC names, of an enabled unit or not (R391). -/
def armCtxs (d : Dev) : List Nat :=
  (((List.range 4).flatMap (fun s => [d.vCtx s, d.dabCtx s])) ++ (List.range 4).map d.legCtx).filter (· != 0)
/-- A binding that R140 zeroes. -/
def armUnbound (d : Dev) : Bool :=
  d.strings.any (fun s => d.dabCtx s != 0 && decide (d.nElem (d.dabCtx s) < d.strCount s)) ||
    d.legs.any (fun u => d.legCtx (u - 48) != 0 && decide (d.nElem (d.legCtx (u - 48)) ≤ d.legElem (u - 48)))
/-- A condition of R391 refuses CMD_ARM. -/
def armRefused (d : Dev) (now : Nat) : Bool :=
  d.stage != .ready || !d.armGate ||
    d.armDomains.any (fun pd => !d.domOn pd || bit d.boot.untested pd) || (!d.domOn 9 && d.fld 0x34 0x20 2 0 != 0) ||
    (d.hull.cause &&& 0xFF8) != 0 || d.brkTrip || d.hull.safeN || d.boot.nvmDefault || d.locus.st == .fault ||
    (d.strings.isEmpty && d.legs.isEmpty) ||
    d.strings.any (fun s => decide (((d.strCells s).filter d.armCell).length < d.nMin s)) ||
    d.legs.any (fun u => (d.lk u).st != .standby || d.holdOf u != .none) ||
    d.armCtxs.any (fun c => (d.cx c).st == .fault) || d.armUnbound || (d.flag 2 0x20 31 && !d.consentOk now)
/-- The first block boundary at least 20 µs ahead (R392). -/
def armBlock (now : Nat) : Nat := (now + 20000 + blockNs - 1) / blockNs
/-- A CMD_ARM or CMD_DISARM is running. -/
def armBusy (d : Dev) : Bool := d.boot.arming.isSome || d.boot.disarming.isSome
/-- CMD_ARM executes (R391); a run of off-state tests when it was submitted refuses it (R258). -/
def doArm (d : Dev) (now : Nat) : Dev :=
  match d.nextCmd 0x01 with
  | none => d
  | some (n, s) =>
    let d := d.beginCmd n
    if s.early ≠ 0 || d.armRefused now then d.endCmd now n stRefState
    else if decide (((8 * d.hull.tsdThr : Nat) : Rat) - 80 ≤ d.tDie) then d.endCmd now n stRefTemp
    else if d.armBusy then d.endCmd now n stBusy
    else d.modBoot (fun b => { b with arming := some (armBlock now, n) })
/-- ARMED: RUN begins at the block boundary (R379, R385, R392). -/
def doArmed (d : Dev) (now b : Nat) : Dev :=
  match d.boot.arming with
  | none => d
  | some (b', n) =>
    if b' ≠ b then d
    else
      let d := d.modBoot (fun b => { b with arming := none })
      if d.stage != .ready then d.endCmd now n stAborted
      else
        let d := (d.setStage now .run 1).modHull (fun h => { h with trip := false, disarm := .none, engStop := 0, kick := now })
        let d := d.each (allUnits.filter d.mayActive) (fun d k => d.enterActive now k)
        (d.boundaryRest now).endCmd now n stDone
/-- CMD_DISARM executes (R393). -/
def doDisarm (d : Dev) (now : Nat) : Dev :=
  match d.nextCmd 0x02 with
  | none => d
  | some (n, s) =>
    let d := d.beginCmd n
    let st := argLE s 0 1
    if st ≠ 1 ∧ st ≠ 2 then d.endCmd now n stBadArg 8
    else if d.stage != .run then d.endCmd now n stRefState
    else if d.armBusy then d.endCmd now n stBusy
    else
      let before := allUnits.map d.effective
      let d := d.modHull (fun h => { h with disarm := if st = 1 then .off else .zero })
      let d := (allUnits.zip before).foldl (fun d ub => d.safeChange now ub.1 ub.2) d
      ((d.setStage now .ready 2).modBoot (fun b => { b with disarming := some n })).disarmEnd now

/-- VDDQ and VANA lie within their levels at a round (R369). -/
def supplyOk (d : Dev) : Bool :=
  [4, 5].all (fun r =>
    let v := d.therm.sup.getD r 0
    decide (d.fld 4 (0x60 + 4 * r) 15 0 ≤ v) && decide (v ≤ d.fld 4 (0x60 + 4 * r) 31 16))
/-- The entry to AWARE from SAFE at a round boundary (R369). -/
def supplyRound (d : Dev) (now : Nat) : Dev :=
  let d := d.modBoot (fun b => { b with supOk := if d.supplyOk then min 32 (b.supOk + 1) else 0 })
  if d.stage == .safe && d.boot.supOk = 32 && decide (40000000 ≤ now) then d.enterAware now 6 else d
/-- The count of cool rounds, and the end of COOLDOWN (R389). -/
def coolRound (d : Dev) (now : Nat) (h : HkData) : Dev :=
  let top := maxI 0 h.die
  let d := d.modHull (fun x => { x with
    coolMax := top, cool := if d.therm.refFault || decide (880 < top) then 0 else min 10000 (x.cool + 1) })
  if d.stage != .cooldown || decide (d.hull.cool < 10000) then d else (d.raiseLog now 2 14).enterAware now 5
/-- The trim's move in RUN (R34), and the time quality at a round. -/
def trimRound (d : Dev) (now : Nat) : Dev :=
  let l := d.locus
  let d := if d.stage == .run && l.trim != l.target then d.applyTrim now (l.trim + clampI (-trimMove) trimMove (l.target - l.trim)) else d
  d.retq now
/-- HOUSEKEEPING_ROUND: round n ends and is published in one step (R345). -/
def doRound (d : Dev) (now n : Nat) (h : HkData) : Dev :=
  if d.stage == .reset || d.boot.por then d
  else
    let d := ((d.modTherm (fun t => { t with round := n })).modPwr (fun p => { p with late := h.relock })).supRound h
    let d := ((d.sensRound now n h).latRound h).shedRound now n
    let d := ((d.modelRound now).osRound now).preRound now
    ((d.trimRound now).supplyRound now).coolRound now h

/-- THERMAL_SHUTDOWN: decided once per crossing (R387, R388). -/
def doTsd (d : Dev) (now : Nat) : Dev :=
  if d.hull.tsdLive || !d.boot.armed then d
  else (d.modHull (fun h => { h with tsdLive := true, tsdCount := sat1 16 h.tsdCount, cool := 0 })).latch now 7
/-- WDOG: the commit watchdog decides violations (R384). -/
def doWdog (d : Dev) (now n : Nat) : Dev :=
  if !d.domOn 2 || !d.readyRun || n = 0 then d
  else (d.modHull (fun h => { h with wdog := satN 16 h.wdog n })).latch now 5
/-- HOSTWD: the host watchdog's time has passed in RUN without a KICK (R385). -/
def doHostwd (d : Dev) (now : Nat) : Dev :=
  let t := d.fld 2 0x64 15 0
  if d.stage == .run && t != 0 && decide (d.hull.kick + t * 1000000 ≤ now) then d.latch now 9 else d
/-- SAFE_N: the pin has been low for its filter time (R381). -/
def doSafeN (d : Dev) (now : Nat) : Dev :=
  if d.hull.safeN || d.boot.por then d
  else
    let old := d
    let d := d.modHull (fun h => { h with safeN := true })
    (if old.faultN || !d.flag 2 0x20 6 then d.pinTrig old now else d).latch now 6
/-- HULL_ARMED: 0.2 ms after power-on Hull drives its pins (R380, R382). -/
def doHullArmed (d : Dev) (now : Nat) : Dev :=
  if d.boot.armed || d.boot.por then d else (d.modBoot (fun b => { b with armed := true })).pinTrig d now

/-- WARM_RESET: the round boundary after an accepted request (R374, Table 15.4). -/
def doWarmReset (d : Dev) (now : Nat) : Dev :=
  if !d.boot.warm then d
  else (d.each [9, 8, 6, 5, 4, 3, 2] (fun d pd => d.ownOff now pd)).enterAware now 9
/-- What a power-on reset leaves: the NVM's contents and the model's own records (Table 15.4, R435). -/
def powerOn (d : Dev) : Dev :=
  { boot := { por := true }, free := d.free
    bus := { sent := d.bus.sent, dma := d.bus.dma }
    nvm := { a := d.nvm.a, b := d.nvm.b, wearA := d.nvm.wearA, wearB := d.nvm.wearB
             ages := d.nvm.ages, est := d.nvm.est, trend := d.nvm.trend, base := d.nvm.base } }
/-- The release of the power-on reset: what arrived while it held left nothing; without REFCLK, its loss is decided at
once (R31, R435, R436). -/
def powerRelease (d : Dev) (refclk : Bool) : Dev :=
  let d := d.powerOn.modBoot (fun b => { b with por := false })
  if refclk then d else d.doRefclkLoss 0

end Dev

/-- SAFE_ENTRY (R369). -/
def execSafeEntry (ok : Bool) (s : State) : Host.Outcome State Fault Refusal := onDev s (fun t d => d.doSafeEntry t ok)
/-- SELF_TEST_END (R372). -/
def execSelfTestEnd (fail : Nat) (s : State) : Host.Outcome State Fault Refusal := onDev s (fun t d => d.doSelfTest t fail)
/-- CMD_ARM (R391). -/
def execCmdArm (s : State) : Host.Outcome State Fault Refusal := onDev s (fun t d => d.doArm t)
/-- ARMED (R392). -/
def execArmed (n : Nat) (s : State) : Host.Outcome State Fault Refusal := onDev s (fun t d => d.doArmed t n)
/-- CMD_DISARM (R393). -/
def execCmdDisarm (s : State) : Host.Outcome State Fault Refusal := onDev s (fun t d => d.doDisarm t)
/-- HOUSEKEEPING_ROUND (R345). -/
def execHousekeepingRound (n : Nat) (h : HkData) (s : State) : Host.Outcome State Fault Refusal :=
  onDev s (fun t d => d.doRound t n h)
/-- THERMAL_SHUTDOWN (R387). -/
def execThermalShutdown (s : State) : Host.Outcome State Fault Refusal := onDev s (fun t d => d.doTsd t)
/-- TSD_LIVE_CLEAR (R387). -/
def execTsdLiveClear (s : State) : Host.Outcome State Fault Refusal :=
  onDev s (fun _ d => d.modHull (fun h => { h with tsdLive := false }))
/-- WDOG (R384). -/
def execWdog (violations : Nat) (s : State) : Host.Outcome State Fault Refusal := onDev s (fun t d => d.doWdog t violations)
/-- HOSTWD (R385). -/
def execHostwd (s : State) : Host.Outcome State Fault Refusal := onDev s (fun t d => d.doHostwd t)
/-- CONSENT_EXPIRY (R386). -/
def execConsentExpiry (s : State) : Host.Outcome State Fault Refusal :=
  onDev s (fun t d => d.modHull (fun h => { h with consent := h.consent.filter (fun e => decide (t < e)) }))
/-- SAFE_N (R381). -/
def execSafeN (s : State) : Host.Outcome State Fault Refusal := onDev s (fun t d => d.doSafeN t)
/-- SAFE_N_RELEASE (R381). -/
def execSafeNRelease (s : State) : Host.Outcome State Fault Refusal :=
  onDev s (fun _ d => d.modHull (fun h => { h with safeN := false }))
/-- HULL_ARMED (R380). -/
def execHullArmed (s : State) : Host.Outcome State Fault Refusal := onDev s (fun t d => d.doHullArmed t)
/-- WARM_RESET (R374). -/
def execWarmReset (s : State) : Host.Outcome State Fault Refusal := onDev s (fun t d => d.doWarmReset t)
/-- POWER_ON_RESET (R435). -/
def execPowerOnReset (s : State) : Host.Outcome State Fault Refusal :=
  .next { s with ring := {}, dev := s.dev.powerOn }
/-- POWER_ON_RESET_RELEASE (R31, R435, R436). -/
def execPowerOnResetRelease (refclk : Bool) (s : State) : Host.Outcome State Fault Refusal :=
  .next (if s.dev.boot.por then { s with clk := {}, dev := s.dev.powerRelease refclk } else s)

end Sys2Proof.Machine
end

