-- ==== Sys2Proof/Machine/Dispatch.lean ====
section
/-! DEFINITION. One arm per command: the meaning of each row of the table of operations and events. -/

namespace Sys2Proof.Machine

def exec (i : Instr) (s : State) : Host.Outcome State Fault Refusal :=
  match i with
  | .registerWrite rq t w whole => Sys2Proof.Machine.execRegisterWrite rq t w whole s
  | .lowerHalfRead rq page at_ => Sys2Proof.Machine.execLowerHalfRead rq page at_ s
  | .upperHalfRead rq page at_ => Sys2Proof.Machine.execUpperHalfRead rq page at_ s
  | .outRead rq k => Sys2Proof.Machine.execOutRead rq k s
  | .cdataRead rq => Sys2Proof.Machine.execCdataRead rq s
  | .lcodeDataRead rq => Sys2Proof.Machine.execLcodeDataRead rq s
  | .rdDataRead rq => Sys2Proof.Machine.execRdDataRead rq s
  | .pageKey rq page w => Sys2Proof.Machine.execPageKey rq page w s
  | .violClr rq w => Sys2Proof.Machine.execViolClr rq w s
  | .evtMaskWrite rq page w => Sys2Proof.Machine.execEvtMaskWrite rq page w s
  | .evtPendClear rq page w => Sys2Proof.Machine.execEvtPendClear rq page w s
  | .qspiFrame opcode addr words nread cut => Sys2Proof.Machine.execQspiFrame opcode addr words nread cut s
  | .submit port => Sys2Proof.Machine.execSubmit port s
  | .completion => Sys2Proof.Machine.execCompletion s
  | .cqHead rq w => Sys2Proof.Machine.execCqHead rq w s
  | .unconf rq k => Sys2Proof.Machine.execUnconf rq k s
  | .realign rq link w => Sys2Proof.Machine.execRealign rq link w s
  | .trimWrite rq link p w => Sys2Proof.Machine.execTrimWrite rq link p w s
  | .deadCfgWrite rq x w => Sys2Proof.Machine.execDeadCfgWrite rq x w s
  | .ctxEnable rq c w => Sys2Proof.Machine.execCtxEnable rq c w s
  | .ctxDisable rq c w => Sys2Proof.Machine.execCtxDisable rq c w s
  | .reqOpen rq c en => Sys2Proof.Machine.execReqOpen rq c en s
  | .reqClose rq c en => Sys2Proof.Machine.execReqClose rq c en s
  | .reqIdle rq c en => Sys2Proof.Machine.execReqIdle rq c en s
  | .cdataWrite rq w => Sys2Proof.Machine.execCdataWrite rq w s
  | .lcodeDataWrite rq w => Sys2Proof.Machine.execLcodeDataWrite rq w s
  | .tgtWrite rq w => Sys2Proof.Machine.execTgtWrite rq w s
  | .periodWrite rq w => Sys2Proof.Machine.execPeriodWrite rq w s
  | .loopLatWrite rq w => Sys2Proof.Machine.execLoopLatWrite rq w s
  | .srcChange rq w => Sys2Proof.Machine.execSrcChange rq w s
  | .set rq w => Sys2Proof.Machine.execSet rq w s
  | .clr rq w => Sys2Proof.Machine.execClr rq w s
  | .force rq => Sys2Proof.Machine.execForce rq s
  | .fbrk rq => Sys2Proof.Machine.execFbrk rq s
  | .kick rq w => Sys2Proof.Machine.execKick rq w s
  | .consent rq w => Sys2Proof.Machine.execConsent rq w s
  | .causeClear rq w => Sys2Proof.Machine.execCauseClear rq w s
  | .rstCtrl rq w => Sys2Proof.Machine.execRstCtrl rq w s
  | .warmReset => Sys2Proof.Machine.execWarmReset s
  | .pwrReq rq w => Sys2Proof.Machine.execPwrReq rq w s
  | .withdraw rq k w => Sys2Proof.Machine.execWithdraw rq k w s
  | .freeze rq w => Sys2Proof.Machine.execFreeze rq w s
  | .channelStart rq k => Sys2Proof.Machine.execChannelStart rq k s
  | .channelStop rq k => Sys2Proof.Machine.execChannelStop rq k s
  | .waveRun rq => Sys2Proof.Machine.execWaveRun rq s
  | .captureEn rq => Sys2Proof.Machine.execCaptureEn rq s
  | .hostTrigger rq => Sys2Proof.Machine.execHostTrigger rq s
  | .rel rq w => Sys2Proof.Machine.execRel rq w s
  | .pop rq => Sys2Proof.Machine.execPop rq s
  | .arrPop rq => Sys2Proof.Machine.execArrPop rq s
  | .resync rq n => Sys2Proof.Machine.execResync rq n s
  | .rxEnSet rq n => Sys2Proof.Machine.execRxEnSet rq n s
  | .rxEnClear rq n => Sys2Proof.Machine.execRxEnClear rq n s
  | .ageFullWrite rq k w => Sys2Proof.Machine.execAgeFullWrite rq k w s
  | .cmdArm => Sys2Proof.Machine.execCmdArm s
  | .armed n => Sys2Proof.Machine.execArmed n s
  | .cmdDisarm => Sys2Proof.Machine.execCmdDisarm s
  | .cmdTimeSet => Sys2Proof.Machine.execCmdTimeSet s
  | .cmdCalibrate => Sys2Proof.Machine.execCmdCalibrate s
  | .calibrationEnd target result => Sys2Proof.Machine.execCalibrationEnd target result s
  | .calibrateTimeout => Sys2Proof.Machine.execCalibrateTimeout s
  | .cmdPrecharge => Sys2Proof.Machine.execCmdPrecharge s
  | .prechargeTimeout slot => Sys2Proof.Machine.execPrechargeTimeout slot s
  | .cmdOffstateRun => Sys2Proof.Machine.execCmdOffstateRun s
  | .cmdPilotRun => Sys2Proof.Machine.execCmdPilotRun s
  | .cmdCtxLoad => Sys2Proof.Machine.execCmdCtxLoad s
  | .ctxLoadReadEnd c x => Sys2Proof.Machine.execCtxLoadReadEnd c x s
  | .cmdBankLoad => Sys2Proof.Machine.execCmdBankLoad s
  | .bankLoadEnd b x => Sys2Proof.Machine.execBankLoadEnd b x s
  | .cmdRespSwap => Sys2Proof.Machine.execCmdRespSwap s
  | .cmdCaptureRead => Sys2Proof.Machine.execCmdCaptureRead s
  | .captureReadEnd slot x => Sys2Proof.Machine.execCaptureReadEnd slot x s
  | .cmdStoreWrite => Sys2Proof.Machine.execCmdStoreWrite s
  | .storeWriteEnd x => Sys2Proof.Machine.execStoreWriteEnd x s
  | .cmdNvmWrite => Sys2Proof.Machine.execCmdNvmWrite s
  | .writeEnd r => Sys2Proof.Machine.execWriteEnd r s
  | .ppsEdge edge => Sys2Proof.Machine.execPpsEdge edge s
  | .irigFrame f => Sys2Proof.Machine.execIrigFrame f s
  | .holdover => Sys2Proof.Machine.execHoldover s
  | .timeSetTimeout => Sys2Proof.Machine.execTimeSetTimeout s
  | .tqChg => Sys2Proof.Machine.execTqChg s
  | .leapSecondStart => Sys2Proof.Machine.execLeapSecondStart s
  | .leapDone => Sys2Proof.Machine.execLeapDone s
  | .leapOccurredEnd => Sys2Proof.Machine.execLeapOccurredEnd s
  | .refclkLoss => Sys2Proof.Machine.execRefclkLoss s
  | .refclkReturn => Sys2Proof.Machine.execRefclkReturn s
  | .downstreamSubframe k n j => Sys2Proof.Machine.execDownstreamSubframe k n j s
  | .blockBoundary n => Sys2Proof.Machine.execBlockBoundary n s
  | .upstreamSubframe k edge pre word v u c p => Sys2Proof.Machine.execUpstreamSubframe k edge pre word v u c p s
  | .linkLoss k => Sys2Proof.Machine.execLinkLoss k s
  | .sample k qty si value m => Sys2Proof.Machine.execSample k qty si value m s
  | .echo k tag turn edge => Sys2Proof.Machine.execEcho k tag turn edge s
  | .upstreamBlockStatus k edge => Sys2Proof.Machine.execUpstreamBlockStatus k edge s
  | .helloId k ty rev => Sys2Proof.Machine.execHelloId k ty rev s
  | .serialLo k v => Sys2Proof.Machine.execSerialLo k v s
  | .serialHi k v => Sys2Proof.Machine.execSerialHi k v s
  | .ack k ty seq => Sys2Proof.Machine.execAck k ty seq s
  | .swdlyOn k pos v => Sys2Proof.Machine.execSwdlyOn k pos v s
  | .swdlyOff k pos v => Sys2Proof.Machine.execSwdlyOff k pos v s
  | .supplyV k pos v => Sys2Proof.Machine.execSupplyV k pos v s
  | .testResult k pos v => Sys2Proof.Machine.execTestResult k pos v s
  | .injectionTimeout k => Sys2Proof.Machine.execInjectionTimeout k s
  | .chopTime k v => Sys2Proof.Machine.execChopTime k v s
  | .bypState k v => Sys2Proof.Machine.execBypState k v s
  | .desat k pos age edge => Sys2Proof.Machine.execDesat k pos age edge s
  | .interlock k pos age edge => Sys2Proof.Machine.execInterlock k pos age edge s
  | .interlockExpiry k => Sys2Proof.Machine.execInterlockExpiry k s
  | .uvlo k pos age edge => Sys2Proof.Machine.execUvlo k pos age edge s
  | .supplyLow k pos age edge => Sys2Proof.Machine.execSupplyLow k pos age edge s
  | .dcOv k pos age edge => Sys2Proof.Machine.execDcOv k pos age edge s
  | .chop k pos age edge => Sys2Proof.Machine.execChop k pos age edge s
  | .nodeOt k pos age edge => Sys2Proof.Machine.execNodeOt k pos age edge s
  | .bypDone k pos age edge => Sys2Proof.Machine.execBypDone k pos age edge s
  | .bypFail k pos age edge => Sys2Proof.Machine.execBypFail k pos age edge s
  | .preDone k pos age edge => Sys2Proof.Machine.execPreDone k pos age edge s
  | .preFail k pos age edge => Sys2Proof.Machine.execPreFail k pos age edge s
  | .cmdRej k pos age edge => Sys2Proof.Machine.execCmdRej k pos age edge s
  | .testDone k pos age edge => Sys2Proof.Machine.execTestDone k pos age edge s
  | .unlistedCode k code pos age edge => Sys2Proof.Machine.execUnlistedCode k code pos age edge s
  | .inputLatch c e x => Sys2Proof.Machine.execInputLatch c e x s
  | .instanceEnd c e => Sys2Proof.Machine.execInstanceEnd c e s
  | .commit m mis => Sys2Proof.Machine.execCommit m mis s
  | .cellStart u => Sys2Proof.Machine.execCellStart u s
  | .restEntry u => Sys2Proof.Machine.execRestEntry u s
  | .retreatReload u => Sys2Proof.Machine.execRetreatReload u s
  | .vertexLatch n => Sys2Proof.Machine.execVertexLatch n s
  | .vertexPublish n => Sys2Proof.Machine.execVertexPublish n s
  | .ageingSave => Sys2Proof.Machine.execAgeingSave s
  | .saved ok => Sys2Proof.Machine.execSaved ok s
  | .pilotWindowEnd => Sys2Proof.Machine.execPilotWindowEnd s
  | .pilotRunEnd => Sys2Proof.Machine.execPilotRunEnd s
  | .clockAcquired pbar => Sys2Proof.Machine.execClockAcquired pbar s
  | .clkLoss => Sys2Proof.Machine.execClkLoss s
  | .clkRange => Sys2Proof.Machine.execClkRange s
  | .channelSettleStart start => Sys2Proof.Machine.execChannelSettleStart start s
  | .cicOutput k c bits => Sys2Proof.Machine.execCicOutput k c bits s
  | .firOutput k c ts pbar => Sys2Proof.Machine.execFirOutput k c ts pbar s
  | .outputPublish k => Sys2Proof.Machine.execOutputPublish k s
  | .phasorFrame sec k => Sys2Proof.Machine.execPhasorFrame sec k s
  | .waveOutput c ts pbar bits => Sys2Proof.Machine.execWaveOutput c ts pbar bits s
  | .extTrigger edge => Sys2Proof.Machine.execExtTrigger edge s
  | .triggerPulseEnd => Sys2Proof.Machine.execTriggerPulseEnd s
  | .recordClose ring => Sys2Proof.Machine.execRecordClose ring s
  | .rxFrame n edge w1 w2 v1 v2 p1 p2 => Sys2Proof.Machine.execRxFrame n edge w1 w2 v1 v2 p1 p2 s
  | .rxBlock n hi lo fine => Sys2Proof.Machine.execRxBlock n hi lo fine s
  | .rxLoss n => Sys2Proof.Machine.execRxLoss n s
  | .muteFadeEnd n sub => Sys2Proof.Machine.execMuteFadeEnd n sub s
  | .txBlock n edge => Sys2Proof.Machine.execTxBlock n edge s
  | .housekeepingRound n h => Sys2Proof.Machine.execHousekeepingRound n h s
  | .domainOn pd => Sys2Proof.Machine.execDomainOn pd s
  | .domainOff pd => Sys2Proof.Machine.execDomainOff pd s
  | .powerOnReset => Sys2Proof.Machine.execPowerOnReset s
  | .powerOnResetRelease refclk => Sys2Proof.Machine.execPowerOnResetRelease refclk s
  | .hullArmed => Sys2Proof.Machine.execHullArmed s
  | .safeEntry ok => Sys2Proof.Machine.execSafeEntry ok s
  | .nvmLoadEnd => Sys2Proof.Machine.execNvmLoadEnd s
  | .selfTestEnd fail => Sys2Proof.Machine.execSelfTestEnd fail s
  | .thermalShutdown => Sys2Proof.Machine.execThermalShutdown s
  | .safeN => Sys2Proof.Machine.execSafeN s
  | .wdog violations => Sys2Proof.Machine.execWdog violations s
  | .hostwd => Sys2Proof.Machine.execHostwd s
  | .consentExpiry => Sys2Proof.Machine.execConsentExpiry s
  | .pcieReset => Sys2Proof.Machine.execPcieReset s
  | .linkDown => Sys2Proof.Machine.execLinkDown s
  | .linkUp rate width => Sys2Proof.Machine.execLinkUp rate width s
  | .safeNRelease => Sys2Proof.Machine.execSafeNRelease s
  | .tsdLiveClear => Sys2Proof.Machine.execTsdLiveClear s
  | .uErr k crcBad => Sys2Proof.Machine.execUErr k crcBad s
  | .configurationWrite msixEn msixMask busMaster => Sys2Proof.Machine.execConfigurationWrite msixEn msixMask busMaster s

end Sys2Proof.Machine
end

