-- ==== Sys2Proof/Safety.lean ====
section
/-! DEFINITION. What claims call safe: a state whose completion ring is in its legal form, and a run that never
stops. -/

namespace Sys2Proof.Machine

/-- The completion ring is legal (R409, R412): SEQ is 1 to 2,047, both indices lie in the ring, at most 63 entries
are unread, and the unread entries are those from the head up to the tail. -/
def Ring.Inv (r : Ring) : Prop :=
  1 ≤ r.seq ∧ r.seq ≤ 2047 ∧ r.head < 64 ∧ r.tail < 64 ∧ r.unread ≤ 63 ∧ (r.head + r.unread) % 64 = r.tail

/-- The block does not stop: the outcome is a next state. -/
def Completes (o : Host.Outcome State Fault Refusal) : Prop := ∃ t, o = .next t

/-- The state with another device: the queue, the time base and the ring as they were. -/
abbrev State.withDev (s : State) (d : Dev) : State := { s with dev := d }

end Sys2Proof.Machine
end

