-- ==== Sys2Proof/Certificates/Slice0/Obligations.lean ====
section
/-! DEFINITION. The statements for the provers. -/

open Sys2Proof Sys2Proof.Machine

/-- Every step with a command at the front of the queue is that command's exec on the state with the queue's rest; on an empty
queue it is one edge of REFCLK (the model's choice, log entry 14). -/
def Obligations.StepRunsFrontCommand : Prop :=
  (∀ (c : Instr) (r : List Instr) (s : State), s.pending = c :: r → step s = exec c { s with pending := r }) ∧
    (∀ s : State, s.pending = [] → step s = .next (refclkEdge s))

/-- SYSCNT (R31, R32): 0 when the power-on reset is released; no command else writes or steps it; each edge adds 40 ns and the
carry of the 32-bit accumulator, which keeps the fraction, so under the limit of the trim 39, 40 or 41 ns, modulo 2^64. -/
def Obligations.SyscntAdvancesOnlyWithReferenceEdges : Prop :=
  (∀ (refclk : Bool) (s : State), s.dev.boot.por = true →
    ∃ t, exec (.powerOnResetRelease refclk) s = .next t ∧ t.clk.cnt = 0) ∧
  (∀ (c : Instr) (s t : State), (∀ refclk, c ≠ .powerOnResetRelease refclk) → exec c s = .next t → t.clk = s.clk) ∧
  (∀ s : State, s.dev.boot.por = false →
    (let t := refclkEdge s
     let trim : Int := if s.dev.belowRun then s.dev.locus.target else s.dev.locus.trim
     let sum : Int := (s.clk.frac.toNat : Int) + trim
     t.pending = s.pending ∧ t.ring = s.ring ∧ t.dev.locus.trim = trim ∧
       t.clk.cnt = s.clk.cnt + BitVec.ofInt 64 (40 + sum / 2 ^ 32) ∧ (t.clk.frac.toNat : Int) = sum % 2 ^ 32 ∧
       (s.dev.locus.trim = s.dev.locus.target → t.dev = s.dev) ∧
       (-34359738 ≤ trim → trim ≤ 34359738 →
         t.clk.cnt = s.clk.cnt + 39 ∨ t.clk.cnt = s.clk.cnt + 40 ∨ t.clk.cnt = s.clk.cnt + 41)))

/-- What reset leaves (R31, R409, R412, Table 15.4): SYSCNT 0, the stage RESET, no hold on any unit, no cause latched,
CMD:SEQ 1, the ring empty with phase 1, every slot free, no command waiting, every register at its reset value. -/
def Obligations.ResetLeavesSpecValues : Prop :=
  State.reset.clk.cnt = 0 ∧ State.reset.dev.boot.stage = .reset ∧ (∀ u, State.reset.dev.holdOf u = .none) ∧
    State.reset.dev.hull.cause = 0 ∧ State.reset.ring.seq = 1 ∧ State.reset.ring.head = 0 ∧
    State.reset.ring.tail = 0 ∧ State.reset.ring.phase = true ∧ (∀ n, State.reset.dev.slot n = none) ∧
    State.reset.pending = [] ∧ (∀ p o, State.reset.dev.rd p o = rstAt (p * 4096 + o) % 2 ^ 32)

/-- The completion ring is legal at reset. -/
def Obligations.RingLegalAtReset : Prop :=
  Ring.Inv State.reset.ring

/-- Every step from every state with a legal completion ring leaves a legal one (R409, R412). -/
def Obligations.StepKeepsRingLegal : Prop :=
  ∀ s t : State, Ring.Inv s.ring → step s = .next t → Ring.Inv t.ring

/-- Every command, from every state, answers a next state; it leaves the queue as it was, and no command but the release
of the power-on reset changes SYSCNT (R31).
The completion ring changes only by SUBMIT, by COMPLETION, by a write of CQ_HEAD and by the power-on reset
(R409, R412): every other command leaves it. -/
def Obligations.EveryCommandCompletesAndFewChangeTheRing : Prop :=
  (∀ (c : Instr) (s : State), ∃ t, exec c s = .next t ∧ t.pending = s.pending ∧
     ((∀ refclk, c ≠ .powerOnResetRelease refclk) → t.clk = s.clk)) ∧
  (∀ (c : Instr) (s t : State), exec c s = .next t →
     (∀ p, c ≠ .submit p) → c ≠ .completion → (∀ rq w, c ≠ .cqHead rq w) → c ≠ .powerOnReset →
     (∀ rq w whole, c ≠ .registerWrite rq (.bar2 0x1404) w whole) → t.ring = s.ring)

/-- A refused write of BAR0 is ignored as a whole: it counts in VIOL_COUNT, VIOL_LAST names its source, reason and place,
DEV:EVT_RAW.VIOL is raised, and nothing else of the device changes but the messages that event sends (R405). -/
def Obligations.RefusedWriteOnlyCounts : Prop :=
  ∀ (rq : Req) (page off : Nat) (w : Word) (whole : Bool) (r : Nat) (s : State),
    s.dev.refusal s.now rq page off w.toNat whole = some r →
    ∃ t pages bus, exec (.registerWrite rq (.bar0 page off) w whole) s = .next t ∧
      t = { s with dev := { s.dev with pages := pages, bus := bus, viol :=
        { count := sat1 32 s.dev.viol.count
          last := (match rq with
            | .pcie => 0
            | .qspi => 2 ^ 31
            | .load => 2 ^ 30) + r * 2 ^ 24 + min page 0x3F * 2 ^ 16 + off % 2 ^ 12 } } } ∧
      (s.dev.pageOn 0 = true → bit (t.dev.pg 0).raw 1 = true) ∧ bus.latch = s.dev.bus.latch ∧ bus.slots = s.dev.bus.slots

/-- What makes a write of BAR0 be refused without the owner's own checks (R6, R395, R401, R404, R405): a page that is off,
a reserved offset, a read-only common register, and a QSPI write outside HULL's four (ACCESS, or
NO_REG where no register stands there). -/
def Obligations.WritesRefusedByAddress : Prop :=
  ∀ (rq : Req) (page off : Nat) (w : Nat) (whole : Bool) (now : Nat) (d : Dev),
    (d.pageOn page = false → d.refusal now rq page off w whole = some 1) ∧
    (d.pageTakes rq page = true → Dev.commonOff off = false → findReg page off = none →
      d.refusal now rq page off w whole = some 1) ∧
    (d.pageTakes rq page = true → (off = 0 ∨ off = 4 ∨ off = 0xC ∨ off = 0x10) →
      d.refusal now rq page off w whole = some 2) ∧
    (d.pageTakes .qspi page = true → ¬(page = 2 ∧ (off = 0x50 ∨ off = 0x58 ∨ off = 0x68 ∨ off = 0x6C)) →
      ∃ r, d.refusal now .qspi page off w whole = some r ∧ r ≤ 2)

/-- An accepted write takes its fields (R9, Table 0.3). For every register of the map: a field that is WO, WOX or W1C keeps
nothing, an RW field takes its bits, an RWS field while its owner is stopped, an RWX field
while the page is unlocked, an RWXS field under both; the NVM load is bound by neither (R10, R425); a bit of no such field, RO or
reserved, keeps what it held.
A register whose value nothing else follows (HK, THERM, the response window, the supervision of Facet, the modulator's and
Vertex's settings, PHASOR, the host ring, the models' and the diagnostics' settings) then holds that value, and no other
register changes. -/
def Obligations.AcceptedWriteTakesTheFields : Prop :=
  (∀ (rq : Req) (page off w : Nat) (h : Hit) (d : Dev), findReg page off = some h →
     (let m := d.merged rq h off w
      let old := d.rd h.page off
      let open' := rq = .load ∨ (d.pg h.page).unlocked = true
      let stop := rq = .load ∨ d.stopped h off = true
      (∀ f, f ∈ h.row.flds →
        ((f.acc = .wo ∨ f.acc = .wox ∨ f.acc = .w1c) → bits m f.hi f.lo = 0) ∧
        (f.acc = .rw → bits m f.hi f.lo = bits w f.hi f.lo) ∧
        (f.acc = .rws → (stop → bits m f.hi f.lo = bits w f.hi f.lo) ∧ (¬stop → bits m f.hi f.lo = bits old f.hi f.lo)) ∧
        (f.acc = .rwx → (open' → bits m f.hi f.lo = bits w f.hi f.lo) ∧ (¬open' → bits m f.hi f.lo = bits old f.hi f.lo)) ∧
        (f.acc = .rwxs → (open' → stop → bits m f.hi f.lo = bits w f.hi f.lo) ∧
          (¬(open' ∧ stop) → bits m f.hi f.lo = bits old f.hi f.lo))) ∧
      (∀ n, n < 32 → (∀ f, f ∈ h.row.flds → ¬(f.lo ≤ n ∧ n ≤ f.hi)) → bit m n = bit old n))) ∧
  (∀ (rq : Req) (page off : Nat) (w : Word) (whole : Bool) (h : Hit) (s : State),
     s.dev.refusal s.now rq page off w.toNat whole = none → Dev.commonOff off = false → findReg page off = some h →
     (page = 4 ∨ page = 5 ∨ page = 0x29 ∨
       (0x10 ≤ page ∧ page ≤ 0x14 ∧ (off = 0x20 ∨ off = 0x28 ∨ (0x400 ≤ off ∧ off < 0x800))) ∨
       (0x18 ≤ page ∧ page ≤ 0x1C ∧ off ≠ 0x20 ∧ off ≠ 0x34 ∧ off ≠ 0x38) ∨
       (page = 0x1E ∧ off ≠ 0x400 ∧ (off < 0x80 ∨ 0x100 ≤ off ∨ off % 0x20 ≠ 0xC)) ∨
       (page = 0x2A ∧ off ≠ 0x38) ∨ (page = 0x30 ∧ off < 0x100) ∨ (page = 0x34 ∧ (off < 0x60 ∨ (0x80 ≤ off ∧ off < 0x100))) ∨
       (page = 0x35 ∧ off ≠ 0x74 ∧ off < 0x400)) →
     exec (.registerWrite rq (.bar0 page off) w whole) s =
       .next (s.withDev (s.dev.wr page off (s.dev.merged rq h off w.toNat))) ∧
     (s.dev.wr page off (s.dev.merged rq h off w.toNat)).rd page off = s.dev.merged rq h off w.toNat % 2 ^ 32 ∧
     (∀ p o, p * 4096 + o ≠ page * 4096 + off →
       (s.dev.wr page off (s.dev.merged rq h off w.toNat)).rd p o = s.dev.rd p o))

/-- The common registers (R403, R416): PAGE_KEY unlocks the page by 0xE5A7 and locks it by 0; EVT_MASK takes its value; a
1 written to a bit of EVT_PEND clears that bit of EVT_RAW, masked or not, and no other. Nothing else of the device
changes but the messages that follow.
VIOL_CLR empties VIOL_COUNT and VIOL_LAST and changes nothing else but its own register (R405). -/
def Obligations.CommonRegisterAndViolClrWritesAct : Prop :=
  (∀ (rq : Req) (page : Nat) (w : Word) (s : State),
     (s.dev.refusal s.now rq page 0x1C w.toNat true = none →
       exec (.pageKey rq page w) s =
         .next (s.withDev (s.dev.updPage page (fun q => { q with unlocked := w.toNat == 0xE5A7 })))) ∧
     (s.dev.refusal s.now rq page 0x14 w.toNat true = none →
       ∃ t pages bus, exec (.evtMaskWrite rq page w) s = .next t ∧
         t = { s with dev := { s.dev with pages := pages, bus := bus } } ∧
         t.dev.pg page = { s.dev.pg page with mask := w.toNat } ∧ (∀ p, p ≠ page → t.dev.pg p = s.dev.pg p)) ∧
     (s.dev.refusal s.now rq page 0x18 w.toNat true = none →
       ∃ t pages bus, exec (.evtPendClear rq page w) s = .next t ∧
         t = { s with dev := { s.dev with pages := pages, bus := bus } } ∧
         (∀ p, p ≠ page → t.dev.pg p = s.dev.pg p) ∧ (t.dev.pg page).mask = (s.dev.pg page).mask ∧
         (∀ n, n < 32 → bit (t.dev.pg page).raw n = (bit (s.dev.pg page).raw n && !bit w.toNat n)))) ∧
  (∀ (rq : Req) (w : Word) (s : State), s.dev.refusal s.now rq 0 0x408 w.toNat true = none →
     ∃ regs, exec (.violClr rq w) s = .next { s with dev := { s.dev with regs := regs, viol := { count := 0, last := 0 } } } ∧
       (∀ p o, p * 4096 + o ≠ 0x408 → ({ s.dev with regs := regs } : Dev).rd p o = s.dev.rd p o))

/-- Raising event n of a page whose domain is on sets EVT_RAW bit n and no other event bit of any page; one of a domain
that is off is lost (R416). -/
def Obligations.RaiseSetsOneEventBit : Prop :=
  ∀ (d : Dev) (p n : Nat),
    (d.pageOn p = true → bit ((d.raise p n).pg p).raw n = true ∧
      (∀ m, m ≠ n → bit ((d.raise p n).pg p).raw m = bit (d.pg p).raw m)) ∧
    (∀ q, q ≠ p → (d.raise p n).pg q = d.pg q) ∧ (d.pageOn p = false → d.raise p n = d)

/-- The two halves of a 64-bit quantity (R7): a read of the lower half answers it and latches the upper one for that
requester; the next read of the upper half answers the latch, whatever the quantity is by then, and consumes it; with
nothing latched it answers the upper half as it is. Neither changes anything else but the count of free values.
A narrower read does what the read of the aligned register does and answers its addressed bytes; a 64-bit read answers both
halves of the quantity, the lower one first, and leaves nothing latched (R398).
A read of a page that is off, or of a reserved offset, answers 0 and counts nothing (R404). -/
def Obligations.PairReadsLatchAndReadsOfNothingAnswerZero : Prop :=
  (∀ (rq : Req) (page off q : Nat) (s : State), s.dev.pageOn page = true → Dev.commonOff off = false →
     (findReg page off).isSome = true →
     (let d : Dev := { s.dev with free := s.dev.free + 1 }
      let up := tget 0 s.dev.bus.latch (latchKey rq page off)
      let took := d.modBus (fun b => { b with latch := tset 0 b.latch (latchKey rq page (off + 4)) (hi32 q + 1) })
      let gave := d.modBus (fun b => { b with latch := tset 0 b.latch (latchKey rq page off) 0 })
      (s.dev.pair s.now page off = some (q, false) →
        exec (.lowerHalfRead rq page ⟨off, .word⟩) s = .next (s.withDev (took.answer rq (lo32 q)))) ∧
      (s.dev.pair s.now page off = some (q, true) →
        exec (.upperHalfRead rq page ⟨off, .word⟩) s = .next (s.withDev (gave.answer rq (if up = 0 then hi32 q else up - 1)))) ∧
      (∀ first n, s.dev.pair s.now page off = some (q, false) →
        exec (.lowerHalfRead rq page ⟨off, .bytes first n⟩) s =
          .next (s.withDev (took.answer rq (lo32 q / 256 ^ first % 256 ^ n)))) ∧
      (∀ first n, s.dev.pair s.now page off = some (q, true) →
        exec (.upperHalfRead rq page ⟨off, .bytes first n⟩) s =
          .next (s.withDev (gave.answer rq ((if up = 0 then hi32 q else up - 1) / 256 ^ first % 256 ^ n)))) ∧
      (s.dev.pair s.now page off = some (q, false) → s.dev.pair s.now page (off + 4) = some (q, true) →
        Dev.commonOff (off + 4) = false → (findReg page (off + 4)).isSome = true →
        ∃ bus, exec (.lowerHalfRead rq page ⟨off, .pair⟩) s =
            .next { s with dev := { s.dev with free := s.dev.free + 2, bus := bus } } ∧
          tget 0 bus.latch (latchKey rq page (off + 4)) = 0 ∧
          (∀ x, x ≠ latchKey rq page (off + 4) → tget 0 bus.latch x = tget 0 s.dev.bus.latch x) ∧
          (if rq = .qspi then bus.respQspi else bus.respPcie) = [lo32 q, hi32 q]))) ∧
  (∀ (rq : Req) (page off : Nat) (s : State),
     (s.dev.pageOn page = false ∨ (Dev.commonOff off = false ∧ findReg page off = none)) →
     exec (.lowerHalfRead rq page ⟨off, .word⟩) s =
       .next (s.withDev (({ s.dev with free := s.dev.free + 1 } : Dev).answer rq 0)))

/-- Reads through a window move it on (R200, R215, R292): CDATA answers coefficient K of the context CSEL names and CSEL.K
goes to K + 1 modulo 64; LCODE:DATA answers the word at ADDR while the page is unlocked and ADDR goes on modulo 16,384;
RD_DATA answers tap TAP and TAP goes on modulo the number of taps. A read while the window stands closed (CSEL names context 0,
LCODE is locked, the bank is not loaded) leaves it where it is, which is the model's reading (log entry 34). Only the window's own register changes.
A read of PRISM:OUT[k] answers the valid flag, the fine part and the value of the channel's published output, and
latches the TS64 of that output for the requester's reads of OUT_TS (R292). -/
def Obligations.WindowAndOutputReadsMoveOn : Prop :=
  (∀ (rq : Req) (s : State),
     (let d : Dev := { s.dev with free := s.dev.free + 1 }
      (s.dev.pageOn 0x20 = true →
        (let c := s.dev.fld 0x20 0x60 13 8
         let k := s.dev.fld 0x20 0x60 5 0
         (c ≠ 0 →
           exec (.cdataRead rq) s =
             .next (s.withDev ((d.wrFld 0x20 0x60 5 0 ((k + 1) % 64)).answer rq (ux 16 (tget 0 (s.dev.cx c).k k)))) ∧
           (d.wrFld 0x20 0x60 5 0 ((k + 1) % 64)).fld 0x20 0x60 5 0 = (k + 1) % 64 ∧
           (d.wrFld 0x20 0x60 5 0 ((k + 1) % 64)).fld 0x20 0x60 13 8 = c) ∧
         (c = 0 → exec (.cdataRead rq) s = .next (s.withDev (d.answer rq 0))))) ∧
      (s.dev.pageOn 0x24 = true →
        (let a := s.dev.fld 0x24 0x20 13 0
         ((s.dev.pg 0x24).unlocked = true →
           exec (.lcodeDataRead rq) s =
             .next (s.withDev ((d.wrFld 0x24 0x20 13 0 ((a + 1) % 16384)).answer rq (tget 0 s.dev.lat.code a).toNat)) ∧
           (d.wrFld 0x24 0x20 13 0 ((a + 1) % 16384)).fld 0x24 0x20 13 0 = (a + 1) % 16384) ∧
         ((s.dev.pg 0x24).unlocked = false → exec (.lcodeDataRead rq) s = .next (s.withDev (d.answer rq 0))))) ∧
      (s.dev.pageOn 0x29 = true →
        (let r := s.dev.respOf (s.dev.flag 0x29 0x100 20) (s.dev.fld 0x29 0x100 19 16)
         let i := s.dev.fld 0x29 0x100 8 0
         (r.n ≠ 0 → r.n ≤ 512 →
           exec (.rdDataRead rq) s =
             .next (s.withDev ((d.wrFld 0x29 0x100 8 0 ((i + 1) % r.n)).answer rq (ux 24 (listGet r.coef i)))) ∧
           (d.wrFld 0x29 0x100 8 0 ((i + 1) % r.n)).fld 0x29 0x100 8 0 = (i + 1) % r.n) ∧
         (r.n = 0 → exec (.rdDataRead rq) s = .next (s.withDev (d.answer rq (ux 24 (listGet r.coef i))))))))) ∧
  (∀ (rq : Req) (k : Nat) (s : State), k < 16 → s.dev.pageOn 0x28 = true →
     (let c := s.dev.chan k
      let v := b2n c.valid * 2 ^ 31 + c.out.stamp % 16 * 2 ^ 24 + ux 24 c.out.val
      let ts := c.out.stamp / 16
      let d : Dev := { s.dev with free := s.dev.free + 1 }
      let took := d.modBus (fun b => { b with
        latch := tset 0 (tset 0 b.latch (latchKey rq 0x28 (0x114 + 0x20 * k)) (ts % 2 ^ 32)) (latchKey rq 0x28 (0x118 + 0x20 * k)) (ts / 2 ^ 32 % 2 ^ 32) })
      exec (.outRead rq k) s = .next (s.withDev (took.answer rq v))))

/-- QSPI frames (R400, R401): an opcode that is neither a read nor a write counts in QSPI_ERR and raises HOST's event 2;
a read of one word answers what a read of the register answers; a write of one whole word is the register write of the
QSPI interface. -/
def Obligations.QspiFramesActByOpcode : Prop :=
  ∀ (opcode addr nread : Nat) (w : Word) (words : List Word) (cut : Bool) (s : State), s.dev.domOn 1 = true → addr < 2 ^ 24 →
    (opcode ≠ 0x0B → opcode ≠ 0xEB → opcode ≠ 0x02 → opcode ≠ 0x38 →
      exec (.qspiFrame opcode addr words nread cut) s = .next (s.withDev ((s.dev.modBus (fun b => { b with qspiErr := sat1 16 b.qspiErr })).raise 8 2))) ∧
    ((opcode = 0x0B ∨ opcode = 0xEB) →
      (let r := s.dev.busRead s.now s.ring.seq .qspi (addr / 4096) (addr % 4096)
       exec (.qspiFrame opcode addr words 1 cut) s = .next (s.withDev (r.2.modBus (fun b => { b with respQspi := [r.1] }))))) ∧
    ((opcode = 0x02 ∨ opcode = 0x38) →
      exec (.qspiFrame opcode addr [w] nread false) s =
        exec (.registerWrite .qspi (.bar0 (addr / 4096) (addr % 4096)) w true) s)

/-- An accepted submission (R409): where PD1 is on, the stage takes the command, the descriptor is laid out right and slot
n is the lowest-numbered free one, slot n holds the command with the handle of CMD:SEQ, CMD:SEQ goes on by 1 and from
2,047 to 1, the command waits behind the others, the answer is the handle, and every other slot is as it was. -/
def Obligations.SubmissionTakesLowestFreeSlot : Prop :=
  ∀ (port n : Nat) (s : State), s.dev.domOn 1 = true →
    s.dev.stageBars ((s.dev.descBytes port).headD 0) = false → descBad (s.dev.descBytes port) = none →
    n < 32 → s.dev.slot n = none → (∀ m, m < n → s.dev.slot m ≠ none) → s.ring.seq ≠ 0 →
    ∃ t sl, exec (.submit port) s = .next t ∧ t.pending = s.pending ∧ t.clk = s.clk ∧
      t.ring = { s.ring with seq := if s.ring.seq = 2047 then 1 else s.ring.seq + 1 } ∧
      t.dev.slot n = some sl ∧ sl.handle = s.ring.seq * 32 + n ∧ sl.handle ≠ 0 ∧
      sl.op = (s.dev.descBytes port).headD 0 ∧ sl.args = (s.dev.descBytes port).drop 8 ∧
      sl.begun = false ∧ sl.ended = none ∧ (∀ m, m ≠ n → t.dev.slot m = s.dev.slot m) ∧
      t.dev.bus.waiting = s.dev.bus.waiting ++ [n] ∧ t.dev.bus.respPcie = [sl.handle] ∧ t.dev.regs = s.dev.regs

/-- A submission that the stage bars, or that finds every slot busy, takes no slot and no sequence number: CMD:REFUSED
counts it and the answer names the reason, 2 for the stage before 1 for the slots (R408, Table 16.5). -/
def Obligations.RefusedSubmissionTakesNothing : Prop :=
  ∀ (port : Nat) (s : State), s.dev.domOn 1 = true →
    (let barred := s.dev.stageBars ((s.dev.descBytes port).headD 0)
     barred = true ∨ (∀ n, n < 32 → s.dev.slot n ≠ none) →
      ∃ t, exec (.submit port) s = .next t ∧ t.ring = s.ring ∧ (∀ n, t.dev.slot n = s.dev.slot n) ∧
        t.dev.bus.refused = sat1 16 s.dev.bus.refused ∧ t.dev.bus.waiting = s.dev.bus.waiting ∧
        t.dev.bus.respPcie = [(if barred then 2 else 1) * 65536])

/-- COMPLETION (R409, R412): while fewer than 63 entries are unread, the command that ended first gets the entry at CQ_TAIL,
with its handle, status, result, time and the phase; the tail goes on modulo 64, the phase turns where it wraps, one
more entry is unread, the slot is free; with 63 unread nothing is written. -/
def Obligations.CompletionWritesTheEntry : Prop :=
  ∀ (n : Nat) (rest : List Nat) (sl : Slot) (st res ts : Nat) (s : State),
    s.dev.bus.ended = n :: rest → s.dev.slot n = some sl → sl.ended = some (st, res, ts) →
    (s.ring.unread < 63 →
      ∃ t, exec .completion s = .next t ∧ t.pending = s.pending ∧ t.clk = s.clk ∧ t.ring.seq = s.ring.seq ∧
        t.ring.head = s.ring.head ∧ t.ring.tail = (s.ring.tail + 1) % 64 ∧ t.ring.unread = s.ring.unread + 1 ∧
        (t.ring.phase = if s.ring.tail = 63 then !s.ring.phase else s.ring.phase) ∧
        tget {} t.ring.cqe s.ring.tail =
          (⟨sl.handle, st, b2n s.ring.phase * 128 + sl.op % 128, res % 2 ^ 32, ts⟩ : CqEntry) ∧
        (∀ e, e ≠ s.ring.tail → tget {} t.ring.cqe e = tget {} s.ring.cqe e) ∧
        t.dev.slot n = none ∧ (∀ m, m ≠ n → t.dev.slot m = s.dev.slot m) ∧ t.dev.bus.ended = rest ∧
        t.dev.regs = s.dev.regs) ∧
    (63 ≤ s.ring.unread → exec .completion s = .next s)

/-- CQ_HEAD takes a new head where no more entries are released than are unread, and as many fewer are unread; a head past
the entries written is ignored and counted (R412). -/
def Obligations.CqHeadReleasesReadEntries : Prop :=
  ∀ (w : Word) (s : State), s.dev.domOn 1 = true → w.toNat < 64 → s.ring.head < 64 →
    (let n := (w.toNat + 64 - s.ring.head) % 64
     (n ≤ s.ring.unread →
       exec (.cqHead .pcie w) s =
         .next { s with ring := { s.ring with head := w.toNat, unread := s.ring.unread - n } }) ∧
     (s.ring.unread < n →
       exec (.cqHead .pcie w) s = .next (s.withDev (s.dev.violate .pcie (.bar2 0x1404) 5))))

/-- The link (R397, R399, R417, Tables 15.4 and 16.14): LINK_UP of a link that is down, at Gen1 to Gen3 and one or two lanes,
takes rate and width and, where MSI-X is not enabled, only raises HOST's event 0; the device trains to nothing else. A PCIe or function-level reset while no command moves data, the link going down,
which is one, and a write of the configuration space that neither ends bus mastering nor enables MSI-X: only the PCIe logic
changes, and no register, hold or slot; the link going down raises event 1. What falls with the link and what does not is
the model's reading (log entry 30). -/
def Obligations.LinkAndPcieResetsChangeOnlyPcieLogic : Prop :=
  (∀ (rate width : Nat) (s : State), s.dev.bus.linkUp = false → s.dev.domOn 1 = true → s.dev.bus.msixEn = false →
     (1 ≤ rate → rate ≤ 3 → 1 ≤ width → width ≤ 2 → exec (.linkUp rate width) s = .next (s.withDev ((s.dev.modBus (fun b =>
       { b with linkUp := true, linkWr := rate + width * 256 })).raise 8 0))) ∧
     ((rate = 0 ∨ 3 < rate ∨ width = 0 ∨ 2 < width) → exec (.linkUp rate width) s = .next s)) ∧
  (∀ (mask bm : Bool) (s : State), s.dev.domOn 1 = true →
     ((∀ c, (s.dev.cx c).load = none) → (∀ b, tget none s.dev.prism.loading b = none) → s.dev.cap.reads = [] →
       s.dev.cap.storeWr = [] → s.dev.nvm.writing = none →
       exec .pcieReset s = .next (s.withDev (s.dev.modBus (fun b => { b with
         pcieRst := sat1 16 b.pcieRst, busMaster := false, msixEn := false, msixMask := false, msix := [], pba := 0 }))) ∧
       (s.dev.bus.linkUp = true →
         exec .linkDown s = .next (s.withDev ((s.dev.modBus (fun b => { b with
           linkUp := false, linkWr := 0, pcieRst := sat1 16 b.pcieRst
           busMaster := false, msixEn := false, msixMask := false, msix := [], pba := 0 })).raise 8 1)))) ∧
     ((bm = true ∨ s.dev.bus.busMaster = false) →
       exec (.configurationWrite false mask bm) s = .next (s.withDev (s.dev.modBus (fun b =>
         { b with msixEn := false, msixMask := mask, busMaster := bm })))))

/-- Accepted writes of HULL's registers (R376, R377, R385, Table 15.5): SET places the hold it codes on the unit it names, CLR
clears holds a step, FORCE latches FORCE or FBRK and acts on it, KICK restarts the host watchdog and is taken from no other
interface than HWD names. Beside that only the register itself is written. -/
def Obligations.HullWritesAct : Prop :=
  ∀ (rq : Req) (w : Word) (s : State),
    (s.dev.refusal s.now rq 2 0x50 w.toNat true = none → ∃ v, exec (.set rq w) s =
      .next (s.withDev ((s.dev.wr 2 0x50 v).place s.now (bits w.toNat 7 0) (Hold.ofCode (bits w.toNat 9 8))))) ∧
    (s.dev.refusal s.now rq 2 0x54 w.toNat true = none → ∃ v, exec (.clr rq w) s =
      .next (s.withDev ((s.dev.wr 2 0x54 v).clearHolds s.now (bits w.toNat 7 0)))) ∧
    (s.dev.refusal s.now rq 2 0x58 1 true = none → ∃ v, exec (.force rq) s =
      .next (s.withDev ((s.dev.wr 2 0x58 v).latch s.now 10))) ∧
    (s.dev.refusal s.now rq 2 0x58 2 true = none → ∃ v, exec (.fbrk rq) s =
      .next (s.withDev ((s.dev.wr 2 0x58 v).latchBit s.now 11))) ∧
    (s.dev.refusal s.now rq 2 0x68 w.toNat true = none → bit w.toNat 0 = true → ∃ v, exec (.kick rq w) s =
      .next (s.withDev ((s.dev.wr 2 0x68 v).modHull (fun h => { h with kick := s.now })))) ∧
    (rq ≠ .load → s.dev.flag 2 0x64 31 ≠ (rq == .qspi) → s.dev.refusal s.now rq 2 0x68 w.toNat true ≠ none)

/-- CAUSE (R383): an accepted write of 1 to a bit clears it and no other, and removes no hold; no write over QSPI is accepted, and
none that clears SAFEN while SAFE_N is asserted, REFCLK while REFCLK is lost, or TSD in COOLDOWN. -/
def Obligations.CauseClearsOverPcieAlone : Prop :=
  ∀ (rq : Req) (w : Word) (s : State),
    (s.dev.refusal s.now rq 2 0x28 w.toNat true = none → ∃ v cause, exec (.causeClear rq w) s =
      .next (s.withDev ((s.dev.wr 2 0x28 v).modHull (fun h => { h with cause := cause }))) ∧
      (∀ n, n < 12 → bit cause n = (bit s.dev.hull.cause n && !bit w.toNat n)) ∧
      (∀ u, ((s.dev.wr 2 0x28 v).modHull (fun h => { h with cause := cause })).holdOf u = s.dev.holdOf u)) ∧
    s.dev.refusal s.now .qspi 2 0x28 w.toNat true ≠ none ∧
    (((bit w.toNat 6 = true ∧ s.dev.hull.safeN = true) ∨ (bit w.toNat 8 = true ∧ s.dev.locus.refOk = false) ∨
      (bit w.toNat 7 = true ∧ s.dev.boot.stage = .cooldown)) → s.dev.refusal s.now rq 2 0x28 w.toNat true ≠ none)

/-- CONSENT (R386): an accepted write makes CONSENT_OK 1, while CONSENT_REQ is 1, for 1,000 ms from then; only 0xA5C3 over QSPI is
accepted. -/
def Obligations.ConsentRunsOneSecond : Prop :=
  ∀ (rq : Req) (w : Word) (s : State),
    (s.dev.refusal s.now rq 2 0x6C w.toNat true = none →
      ∃ t, exec (.consent rq w) s = .next t ∧ t.pending = s.pending ∧ t.clk = s.clk ∧ t.ring = s.ring ∧
        (∀ at', t.dev.consentOk at' = (s.dev.flag 2 0x20 31 && decide (at' < s.now + 1000000000))) ∧
        (∀ p o, p * 4096 + o ≠ 0x206C → t.dev.rd p o = s.dev.rd p o) ∧ t.dev.hull.hold = s.dev.hull.hold ∧
        t.dev.hull.cause = s.dev.hull.cause) ∧
    (rq ≠ .qspi → s.dev.refusal s.now rq 2 0x6C w.toNat true ≠ none) ∧
    (w ≠ 0xA5C3 → s.dev.refusal s.now rq 2 0x6C w.toNat true ≠ none)

/-- Accepted writes that start a reset, move domains or change the time source (R40, R363, R374). RST_CTRL notes the warm
reset for the next round; PWR:REQ turns its clear bits off and its set bits on; a new SRC keeps OFFSET and the applied
trim, and Locus acquires the new source, or is FREE with none, unless it is in FAULT. -/
def Obligations.ResetPowerAndSourceWritesAct : Prop :=
  ∀ (rq : Req) (w : Word) (s : State),
    (s.dev.refusal s.now rq 0 0x78 w.toNat true = none → ∃ v, exec (.rstCtrl rq w) s =
      .next (s.withDev ((s.dev.wr 0 0x78 v).modBoot (fun b => { b with warm := true })))) ∧
    (s.dev.refusal s.now rq 1 0x20 w.toNat true = none → exec (.pwrReq rq w) s =
      .next (s.withDev (s.dev.pwrWrite w.toNat))) ∧
    (s.dev.refusal s.now rq 3 0x20 w.toNat true = none → bits w.toNat 2 0 ≠ s.dev.src →
      s.dev.locus.st ≠ .fault → ∃ t, exec (.srcChange rq w) s = .next t ∧ t.pending = s.pending ∧ t.clk = s.clk ∧
        t.ring = s.ring ∧ t.dev.src = bits w.toNat 2 0 ∧
        t.dev.locus.st = (if bits w.toNat 2 0 = 0 then .free else .acquire) ∧
        t.dev.locus.offset = s.dev.locus.offset ∧ t.dev.locus.trim = s.dev.locus.trim ∧ t.dev.hull = s.dev.hull ∧
        t.dev.link = s.dev.link ∧ t.dev.lat = s.dev.lat)

/-- Accepted writes of the configuration of strings, links, trims and dead times (R20, R89, R95, R110, R167, R170, R250): each
holds its register and does what the rule says. UNCONF leaves the string with no cell; REALIGN runs for the link; TRIM and
DEAD_CFG send what changed to the nodes; WITHDRAW adds its bits to those that stand (a 0 over a 1 is disregarded by the model's
reading, log entry 51); AGE_FULL sets the cell's ageing. -/
def Obligations.TopologyWritesAct : Prop :=
  ∀ (rq : Req) (w : Word) (s : State),
    (∀ str, str < 4 → (s.dev.boot.stage = .aware ∨ s.dev.boot.stage = .ready) →
      s.dev.refusal s.now rq 0 (0x40 + 4 * str) 0x80000000 true = none →
      ∃ v, bits v 12 8 = 0 ∧ exec (.unconf rq str) s =
        .next (s.withDev ((((s.dev.wr 0 (0x40 + 4 * str) v).syncAll allUnits).arrUpdate).osCheck s.now))) ∧
    (∀ k, k < 52 → bit w.toNat 0 = true →
      s.dev.refusal s.now rq (facetPage k) (0x40 + 0x20 * unitIdx k) w.toNat true = none →
      ∃ v, exec (.realign rq k w) s =
        .next (s.withDev ((s.dev.wr (facetPage k) (0x40 + 0x20 * unitIdx k) v).realignLink s.now k))) ∧
    (∀ k p, posOk k p = true →
      s.dev.refusal s.now rq (facetPage k) (0x800 + 0x40 * unitIdx k + 4 * p) w.toNat true = none →
      ∃ v, exec (.trimWrite rq k p w) s =
        .next (s.withDev ((s.dev.wr (facetPage k) (0x800 + 0x40 * unitIdx k + 4 * p) v).syncCfg k))) ∧
    (∀ x, x < 5 → s.dev.refusal s.now rq (0x18 + x) 0x20 w.toNat true = none →
      ∃ v, exec (.deadCfgWrite rq x w) s =
        .next (s.withDev ((s.dev.wr (0x18 + x) 0x20 v).syncAll (Dev.pageUnits x)))) ∧
    (∀ k, k < 48 → s.dev.refusal s.now rq 0x34 (0x404 + 0x10 * k) w.toNat true = none →
      exec (.ageFullWrite rq k w) s =
        .next (s.withDev (s.dev.updModel k (fun m => { m with age := (w.toNat : Rat) / 4294967296 })))) ∧
    (∀ str, str < 4 → s.dev.refusal s.now rq 0x1E (0x8C + 0x20 * str) w.toNat true = none →
      ∃ v, exec (.withdraw rq str w) s = .next (s.withDev (s.dev.wr 0x1E (0x8C + 0x20 * str) v)) ∧
        ∀ i, i < 16 → bit v i = (bit (s.dev.rd 0x1E (0x8C + 0x20 * str)) i || bit w.toNat i)) ∧
    (s.dev.refusal s.now rq 0x1E 0x400 w.toNat true = none →
      ∃ v, exec (.freeze rq w) s = .next (s.withDev
        (if s.dev.flag 0x1E 0x400 0 && !bit v 0 then (s.dev.wr 0x1E 0x400 v).ptAbort s.now else s.dev.wr 0x1E 0x400 v)))

/-- Accepted writes of a context's CTRL (R191, R198, R209): EN set where it was clear enables the context in IDLE; EN
cleared disables it; a request is noted for the next evaluation, EN as it was. -/
def Obligations.ContextControlWritesAct : Prop :=
  ∀ (rq : Req) (c : Nat) (w : Word) (en : Bool) (s : State), 1 ≤ c → c ≤ 63 →
    (let off := 0x40 + 0x20 * ctxIdx c
     (s.dev.refusal s.now rq (ctxPage c) off w.toNat true = none → bit w.toNat 0 = true → (s.dev.cx c).en = false →
       bits w.toNat 6 4 = 0 → exec (.ctxEnable rq c w) s = .next (s.withDev (s.dev.ctxEnable c)) ∧
         ((s.dev.ctxEnable c).cx c).en = true ∧ ((s.dev.ctxEnable c).cx c).st = .idle) ∧
     (s.dev.refusal s.now rq (ctxPage c) off w.toNat true = none → bit w.toNat 0 = false → (s.dev.cx c).en = true →
       exec (.ctxDisable rq c w) s = .next (s.withDev (s.dev.ctxDisable c)) ∧
         ((s.dev.ctxDisable c).cx c).en = false ∧ ((s.dev.ctxDisable c).cx c).req = 0) ∧
     ((s.dev.cx c).en = en →
       (s.dev.refusal s.now rq (ctxPage c) off (16 + b2n en) true = none →
         exec (.reqOpen rq c en) s = .next (s.withDev (s.dev.updCtx c (fun x => { x with req := 1 })))) ∧
       (s.dev.refusal s.now rq (ctxPage c) off (32 + b2n en) true = none →
         exec (.reqClose rq c en) s = .next (s.withDev (s.dev.updCtx c (fun x => { x with req := 2 })))) ∧
       (s.dev.refusal s.now rq (ctxPage c) off (48 + b2n en) true = none →
         exec (.reqIdle rq c en) s = .next (s.withDev (s.dev.updCtx c (fun x => { x with req := 3 }))))))

/-- Accepted writes of the LATTICE and LCODE windows (R181, R200, R215, R225): CDATA is staged for coefficient K of the context
CSEL names and K moves on; LCODE:DATA takes the word at ADDR, which moves on; TGT sets the target of the element it names,
or of all sixteen; PERIOD and LOOP_LAT take effect at the next multiple of the period after the write. -/
def Obligations.LatticeWritesAct : Prop :=
  ∀ (rq : Req) (w : Word) (s : State),
    (let c := s.dev.fld 0x20 0x60 13 8
     let k := s.dev.fld 0x20 0x60 5 0
     s.dev.refusal s.now rq 0x20 0x64 w.toNat true = none → ∃ v, exec (.cdataWrite rq w) s =
       .next (s.withDev ((s.dev.updCtx c (fun x => { x with staged := x.staged ++ [(k, sx 16 w.toNat)] })).wr 0x20 0x60 v)) ∧
       bits v 5 0 = (k + 1) % 64 ∧ bits v 13 8 = c) ∧
    (let a := s.dev.fld 0x24 0x20 13 0
     s.dev.refusal s.now rq 0x24 0x24 w.toNat true = none → ∃ v, exec (.lcodeDataWrite rq w) s =
       .next (s.withDev ((s.dev.modLat (fun l => { l with code := tset 0 l.code a w })).wr 0x24 0x20 v)) ∧
       bits v 13 0 = (a + 1) % 16384) ∧
    (s.dev.refusal s.now rq 0x20 0x78 w.toNat true = none →
      ∃ t, exec (.tgtWrite rq w) s = .next t ∧ t.pending = s.pending ∧ t.ring = s.ring ∧ t.dev.regs = s.dev.regs ∧
        (let c := s.dev.fld 0x20 0x60 13 8
         (∀ e, e < 16 → (bit w.toNat 31 = true ∨ e = bits w.toNat 19 16) → (t.dev.elem c e).tgt = sx 16 w.toNat) ∧
         (∀ e, e < 16 → bit w.toNat 31 = false → e ≠ bits w.toNat 19 16 → t.dev.elem c e = s.dev.elem c e) ∧
         (∀ x, x ≠ c → t.dev.cx x = s.dev.cx x))) ∧
    (s.dev.refusal s.now rq 0x20 0x24 w.toNat true = none → ∃ v, exec (.loopLatWrite rq w) s =
      .next (s.withDev ((s.dev.wr 0x20 0x24 v).modLat (fun l =>
        { l with latNext := some (w.toNat, (s.now + s.dev.lat.tc + s.dev.lat.tc - 1) / s.dev.lat.tc * s.dev.lat.tc) })))) ∧
    (s.dev.refusal s.now rq 0x20 0x20 w.toNat true = none → ∃ v, exec (.periodWrite rq w) s =
      .next (s.withDev ((s.dev.wr 0x20 0x20 v).periodEffect s.now w.toNat)))

/-- Accepted writes of PRISM, WAVE, CAPTURE and PHASOR (R282, R300, R303, R305, R308, R309, R312): RUN set or cleared starts or
stops the channel or the path, CAPTURE's EN starts recording, TRIG.HOST is a trigger now, REL ends a record's lock, a pop
drops the oldest entry of its queue. Beside that only the register itself is written.
Accepted writes of a stream port (R324, R325, R335, R341): EN set wakes the receiver where the stage lets it run, EN
cleared closes it and checks the transmitters that follow it, RESYNC returns a transmitter that fell back. -/
def Obligations.MeasurementAndStreamWritesAct : Prop :=
  (∀ (rq : Req) (w : Word) (s : State),
     (∀ k, k < 16 → s.dev.refusal s.now rq 0x28 (0x100 + 0x20 * k) 1 true = none →
       s.dev.flag 0x28 (0x100 + 0x20 * k) 0 = false → exec (.channelStart rq k) s =
         .next (s.withDev ((s.dev.wrFld 0x28 (0x100 + 0x20 * k) 0 0 1).chanStart s.now k))) ∧
     (∀ k, k < 16 → s.dev.refusal s.now rq 0x28 (0x100 + 0x20 * k) 0 true = none →
       s.dev.flag 0x28 (0x100 + 0x20 * k) 0 = true → exec (.channelStop rq k) s =
         .next (s.withDev ((s.dev.wrFld 0x28 (0x100 + 0x20 * k) 0 0 0).chanStop s.now k))) ∧
     (s.dev.refusal s.now rq 0x2B 0x20 1 true = none → s.dev.flag 0x2B 0x20 0 = false → exec (.waveRun rq) s =
       .next (s.withDev ((s.dev.wrFld 0x2B 0x20 0 0 1).modWave (fun x =>
         { x with running := true, waitClk := false, skip := 3, chan := [] })))) ∧
     (s.dev.refusal s.now rq 0x2C 0x20 1 true = none → s.dev.flag 0x2C 0x20 0 = false → exec (.captureEn rq) s =
       .next (s.withDev ((s.dev.wrFld 0x2C 0x20 0 0 1).capStart s.now))) ∧
     (s.dev.refusal s.now rq 0x2C 0x28 1 true = none → exec (.hostTrigger rq) s =
       .next (s.withDev ((s.dev.wrFld 0x2C 0x28 0 0 0).trigger s.now 0 255 s.now))) ∧
     (s.dev.refusal s.now rq 0x2C 0xBC w.toNat true = none → exec (.rel rq w) s =
       .next (s.withDev ((s.dev.wrFld 0x2C 0xBC 31 0 0).relEffect w.toNat))) ∧
     (s.dev.refusal s.now rq 0x2A 0x38 1 true = none → exec (.pop rq) s =
       .next (s.withDev ((s.dev.wrFld 0x2A 0x38 0 0 0).modPhasor (fun x => { x with queue := x.queue.drop 1 })))) ∧
     (s.dev.refusal s.now rq 0x2B 0x3C 1 true = none → exec (.arrPop rq) s =
       .next (s.withDev ((s.dev.wrFld 0x2B 0x3C 0 0 0).modWave (fun x => { x with fifo := x.fifo.drop 1 }))))) ∧
  (∀ (rq : Req) (n : Nat) (s : State), n < 8 →
     (s.dev.refusal s.now rq 0x30 (0x100 + 0x40 * n) (setBit (s.dev.rd 0x30 (0x100 + 0x40 * n)) 0 true) true = none →
       s.dev.rxEn n = false → exec (.rxEnSet rq n) s =
         .next (s.withDev ((s.dev.wrFld 0x30 (0x100 + 0x40 * n) 0 0 1).rxEnable s.now n))) ∧
     (s.dev.refusal s.now rq 0x30 (0x100 + 0x40 * n) (setBit (s.dev.rd 0x30 (0x100 + 0x40 * n)) 0 false) true = none →
       s.dev.rxEn n = true → exec (.rxEnClear rq n) s =
         .next (s.withDev (((s.dev.wrFld 0x30 (0x100 + 0x40 * n) 0 0 0).rxClose s.now n).txFallCheck s.now))) ∧
     (s.dev.refusal s.now rq 0x30 (0x134 + 0x40 * n) 1 true = none → exec (.resync rq n) s =
       .next (s.withDev ((s.dev.wrFld 0x30 (0x134 + 0x40 * n) 0 0 0).txResync n))))

/-- Where the reads of windows and the writes that act complete, by conditions on the state and the operands alone (R200, R215, R282,
R292, R303, R308, R309, R312, R324, R325, R341, R403, R405, R416). A read completes for either requester. A write over PCIe
completes with its effect where its page is on and READY and the stage is READY or RUN, and: the key is 0xE5A7 or 0; the bits are
events of the page; the page is unlocked for VIOL_CLR; the clock is there, the response ready, SD15 held for channel 15 and the
engine's capacity enough for a start; the partitions have two slots each; the record is locked; the transmitter fell back and its
source is there; IRIG-B does not hold SP7. -/
def Obligations.WindowReadsAndAcceptedWritesComplete : Prop :=
  (∀ (rq : Req) (k : Nat) (s : State),
     (let got := fun (t : State) => if rq = .qspi then t.dev.bus.respQspi else t.dev.bus.respPcie
      (k < 16 → s.dev.pageOn 0x28 = true →
        ∃ t, exec (.outRead rq k) s = .next t ∧ t.pending = s.pending ∧ t.clk = s.clk ∧ t.ring = s.ring ∧ t.dev.regs = s.dev.regs ∧
          got t = [b2n (s.dev.chan k).valid * 2 ^ 31 + (s.dev.chan k).out.stamp % 16 * 2 ^ 24 + ux 24 (s.dev.chan k).out.val]) ∧
      (s.dev.pageOn 0x20 = true → s.dev.fld 0x20 0x60 13 8 ≠ 0 →
        ∃ t, exec (.cdataRead rq) s = .next t ∧ t.pending = s.pending ∧ t.clk = s.clk ∧ t.ring = s.ring ∧ t.dev.lat = s.dev.lat ∧
          got t = [ux 16 (tget 0 (s.dev.cx (s.dev.fld 0x20 0x60 13 8)).k (s.dev.fld 0x20 0x60 5 0))]) ∧
      (s.dev.pageOn 0x24 = true → (s.dev.pg 0x24).unlocked = true →
        ∃ t, exec (.lcodeDataRead rq) s = .next t ∧ t.pending = s.pending ∧ t.clk = s.clk ∧ t.ring = s.ring ∧ t.dev.lat = s.dev.lat ∧
          got t = [(tget 0 s.dev.lat.code (s.dev.fld 0x24 0x20 13 0)).toNat]) ∧
      (s.dev.pageOn 0x29 = true →
        ∃ t, exec (.rdDataRead rq) s = .next t ∧ t.pending = s.pending ∧ t.clk = s.clk ∧ t.ring = s.ring ∧ t.dev.prism = s.dev.prism ∧
          got t = [ux 24 (listGet (s.dev.respOf (s.dev.flag 0x29 0x100 20) (s.dev.fld 0x29 0x100 19 16)).coef
            (s.dev.fld 0x29 0x100 8 0))]))) ∧
  (∀ (page : Nat) (w : Word) (s : State), (s.dev.stage = .ready ∨ s.dev.stage = .run) →
     s.dev.pageOn page = true → (s.dev.pg page).ready = true →
     ((w = 0xE5A7 ∨ w = 0) → exec (.pageKey .pcie page w) s =
       .next (s.withDev (s.dev.updPage page (fun q => { q with unlocked := w == 0xE5A7 })))) ∧
     (w.toNat &&& evtBits page = w.toNat →
       (∃ t, exec (.evtMaskWrite .pcie page w) s = .next t ∧ t.pending = s.pending ∧ t.clk = s.clk ∧ t.ring = s.ring ∧
         t.dev.regs = s.dev.regs ∧ t.dev.pg page = { s.dev.pg page with mask := w.toNat }) ∧
       (∃ t, exec (.evtPendClear .pcie page w) s = .next t ∧ t.pending = s.pending ∧ t.clk = s.clk ∧ t.ring = s.ring ∧
         t.dev.regs = s.dev.regs ∧
         (∀ n, n < 32 → bit (t.dev.pg page).raw n = (bit (s.dev.pg page).raw n && !bit w.toNat n)))) ∧
     (page = 0 → (s.dev.pg 0).unlocked = true → exec (.violClr .pcie w) s =
       .next (s.withDev { s.dev.wrFld 0 0x408 31 0 0 with viol := { count := 0, last := 0 } }))) ∧
  (∀ (k n : Nat) (w : Word) (s : State), (s.dev.stage = .ready ∨ s.dev.stage = .run) →
     (s.dev.pageOn 0x28 = true → (s.dev.pg 0x28).ready = true → k < 16 →
       (let run := 0x100 + 0x20 * k
        (s.dev.flag 0x28 run 0 = false → s.dev.clkOk = true →
          (s.dev.chAux k = true → (s.dev.bankOf (s.dev.chResp k)).loaded = true ∧
            tget none s.dev.prism.loading (s.dev.chResp k) = none) →
          (k = 15 → s.dev.flag 0x28 0x28 0 = true) → s.dev.demand + s.dev.demand1 k ≤ 6553 →
          exec (.channelStart .pcie k) s = .next (s.withDev ((s.dev.wrFld 0x28 run 0 0 1).chanStart s.now k)) ∧
            ((s.dev.chan k).st = .stopped → (((s.dev.wrFld 0x28 run 0 0 1).chanStart s.now k).chan k).st = .starting)) ∧
        (s.dev.flag 0x28 run 0 = true →
          exec (.channelStop .pcie k) s = .next (s.withDev ((s.dev.wrFld 0x28 run 0 0 0).chanStop s.now k)) ∧
            (((s.dev.wrFld 0x28 run 0 0 0).chanStop s.now k).chan k).st = .stopped))) ∧
     (s.dev.pageOn 0x2B = true → (s.dev.pg 0x2B).ready = true →
       (s.dev.flag 0x2B 0x20 0 = false → s.dev.domOn 5 = true → s.dev.clkOk = true →
         exec (.waveRun .pcie) s = .next (s.withDev ((s.dev.wrFld 0x2B 0x20 0 0 1).modWave (fun x =>
           { x with running := true, waitClk := false, skip := 3, chan := [] })))) ∧
       exec (.arrPop .pcie) s = .next (s.withDev ((s.dev.wrFld 0x2B 0x3C 0 0 0).modWave (fun x => { x with fifo := x.fifo.drop 1 })))) ∧
     (s.dev.pageOn 0x2A = true → (s.dev.pg 0x2A).ready = true →
       exec (.pop .pcie) s = .next (s.withDev ((s.dev.wrFld 0x2A 0x38 0 0 0).modPhasor (fun x => { x with queue := x.queue.drop 1 })))) ∧
     (s.dev.pageOn 0x2C = true → (s.dev.pg 0x2C).ready = true →
       (s.dev.flag 0x2C 0x20 0 = false → (∀ i, (i = 0 ∨ i = 1 ∨ i = 3) → s.dev.partEn i = true → 2 ≤ s.dev.slotsFor i) →
         exec (.captureEn .pcie) s = .next (s.withDev ((s.dev.wrFld 0x2C 0x20 0 0 1).capStart s.now))) ∧
       exec (.hostTrigger .pcie) s = .next (s.withDev ((s.dev.wrFld 0x2C 0x28 0 0 0).trigger s.now 0 255 s.now)) ∧
       (∀ i r, (i = 0 ∨ i = 1 ∨ i = 3) → r ∈ (s.dev.ringOf i).recs → r.id = w.toNat → Dev.recLocked r = true →
         exec (.rel .pcie w) s = .next (s.withDev ((s.dev.wrFld 0x2C 0xBC 31 0 0).relEffect w.toNat)))) ∧
     (s.dev.pageOn 0x30 = true → (s.dev.pg 0x30).ready = true → n < 8 →
       (let cfg := 0x100 + 0x40 * n
        (bits (s.dev.rd 0x30 cfg) 31 12 = 0 → bits (s.dev.rd 0x30 cfg) 7 3 = 0 → s.dev.fld 0x30 cfg 11 8 ≤ 9 →
          (s.dev.rxEn n = false → (n = 7 → s.dev.irigHeld = false) → exec (.rxEnSet .pcie n) s =
            .next (s.withDev ((s.dev.wrFld 0x30 cfg 0 0 1).rxEnable s.now n))) ∧
          (s.dev.rxEn n = true → exec (.rxEnClear .pcie n) s =
            .next (s.withDev (((s.dev.wrFld 0x30 cfg 0 0 0).rxClose s.now n).txFallCheck s.now)))) ∧
        ((s.dev.port! n).txFall = true → s.dev.txSrcOk n = true → exec (.resync .pcie n) s =
          .next (s.withDev ((s.dev.wrFld 0x30 (0x134 + 0x40 * n) 0 0 0).txResync n))))))

/-- A downstream subframe (R58 to R61, R74): subframe j of block n leaves at n × 245,760 + 640 × j ns with preamble B, M or W,
even parity and V; V is 1 on a link that is not ACTIVE, and on one whose unit is held or restarts; a link that carries no
control words sends the idle word; where a safe state is to be sent it is SAFE_STATE; no other link and no register changes.
Before Hull is armed and while the power-on reset holds, no transmitter sends (R435, R446). -/
def Obligations.DownstreamSubframeIsScheduled : Prop :=
  ∀ (k n j : Nat) (s : State), k < 52 → 2 ≤ n → j < 384 →
    ((s.dev.boot.armed = false ∨ s.dev.boot.por = true) → exec (.downstreamSubframe k n j) s = .next s) ∧
    (s.dev.boot.armed = true → s.dev.boot.por = false →
    ∃ t f, exec (.downstreamSubframe k n j) s = .next t ∧ t.pending = s.pending ∧ t.ring = s.ring ∧
      (t.dev.lk k).ds = some f ∧ f.at_ = n * 245760 + 640 * j ∧
      (f.pre = if j = 0 then 0 else if j % 2 = 0 then 1 else 2) ∧ f.v = s.dev.vBit k ∧
      ((s.dev.lk k).st ≠ .active → f.v = true) ∧ (s.dev.effective k ≠ .none → f.v = true) ∧
      ((s.dev.lk k).st = .active → s.dev.effective k = .none → (s.dev.lk k).safeQ = none → (s.dev.ch k).mode ≠ .held → f.v = false) ∧
      (ones 24 f.word + b2n f.v + b2n f.u + b2n f.c + b2n f.p) % 2 = 0 ∧
      (s.dev.linked k = false → f.word = 0xC00000) ∧
      (∀ code m, ((s.dev.lk k).st = .standby ∨ (s.dev.lk k).st = .active) → (s.dev.lk k).safeQ = some (code, m) → f.word = ctlWord 0x01 code) ∧
      (∀ x, x ≠ k → t.dev.lk x = s.dev.lk x) ∧ t.dev.regs = s.dev.regs ∧ t.dev.hull = s.dev.hull)

/-- An upstream subframe (R62, R80): with even parity its word, V bit and U bit are taken; with odd parity PAR_ERR counts it,
and on a link in HELLO or DOWN nothing else follows; no other link changes.
A sample that a node delivers for index m, its parity bit agreeing (R69, R101, R184), is what the link holds for that
quantity; the samples of other quantities and other links, the registers and the holds stay. -/
def Obligations.UpstreamSubframesAndSamplesAreTaken : Prop :=
  (∀ (k edge pre word : Nat) (v u c p : Bool) (s : State), k < 52 →
     ((ones 24 (word % 2 ^ 24) + b2n v + b2n u + b2n c + b2n p) % 2 = 0 →
       ∃ t l, exec (.upstreamSubframe k edge pre word v u c p) s = .next (s.withDev t) ∧
         t = s.dev.updLink k (fun _ => l) ∧ l.lastPre = some edge ∧ l.seen = true ∧ l.nodeV = v ∧
         l.rxWord = some (word % 2 ^ 24) ∧ l.uBits = ((s.dev.lk k).uBits * 2 + b2n u) % 2 ^ 48 ∧ l.st = (s.dev.lk k).st) ∧
     ((ones 24 (word % 2 ^ 24) + b2n v + b2n u + b2n c + b2n p) % 2 = 1 → s.dev.linked k = false →
       ∃ t l, exec (.upstreamSubframe k edge pre word v u c p) s = .next (s.withDev t) ∧
         t = s.dev.updLink k (fun _ => l) ∧ l.parErr = sat1 32 (s.dev.lk k).parErr ∧ l.rxWord = none ∧
         l.nodeV = (s.dev.lk k).nodeV ∧ l.st = (s.dev.lk k).st)) ∧
  (∀ (k qty m : Nat) (v : Int) (s : State), k < 52 → qty < 7 →
     ∃ t, exec (.sample k qty (m % 2 == 1) v m) s = .next t ∧ t.pending = s.pending ∧ t.clk = s.clk ∧ t.ring = s.ring ∧
       tget (1048576, 0) (t.dev.lk k).samp qty = (v, m) ∧
       (∀ q, q ≠ qty → tget (1048576, 0) (t.dev.lk k).samp q = tget (1048576, 0) (s.dev.lk k).samp q) ∧
       (∀ x, x ≠ k → t.dev.lk x = s.dev.lk x) ∧ t.dev.regs = s.dev.regs ∧ t.dev.hull = s.dev.hull)

/-- What the upstream management channel and hellos bring (R78, R83, R86): a HELLO_ID and the two serial words are kept on a
link that is not linked, a HELLO_ID on one that is sends it to LOST; the ACK of the ADMIT or of the DELAY_SET in force is
noted; a message that fails its CRC counts in U_ERR; silence takes a linked one to LOST, and one in HELLO
to DOWN at the next block boundary.
The first echo of a link, or one within the window of DELAY (R81, R82, R92): it answers the ECHO_REQ of its tag, RTT and TURN
show it, ASYM as written acts from it on, and DELAY takes the mean of the echoes kept. -/
def Obligations.LinkManagementAndEchoesAct : Prop :=
  (∀ (k ty rev v seq : Nat) (s : State), k < 52 →
     (s.dev.linked k = false →
       exec (.helloId k ty rev) s = .next (s.withDev (s.dev.updLink k (fun l => { l with hId := some (ty, rev), nodeType := ty })))) ∧
     (s.dev.linked k = true → exec (.helloId k ty rev) s = .next (s.withDev (s.dev.enterLost s.now k))) ∧
     exec (.serialLo k v) s = .next (s.withDev (s.dev.updLink k (fun l => { l with hLo := some v }))) ∧
     exec (.serialHi k v) s = .next (s.withDev (s.dev.updLink k (fun l => { l with hHi := some v }))) ∧
     ((s.dev.lk k).st = .hello → (s.dev.lk k).admitSeq = some seq →
       exec (.ack k 4 seq) s = .next (s.withDev (s.dev.updLink k (fun l => { l with admitted := true })))) ∧
     ((s.dev.lk k).dsetSeq = some seq → (s.dev.lk k).nodeAligned = false →
       exec (.ack k 5 seq) s = .next (s.withDev (s.dev.updLink k (fun l => { l with dsetAck := true })))) ∧
     exec (.uErr k true) s = .next (s.withDev (s.dev.updLink k (fun l => { l with uErr := sat1 16 l.uErr, uBits := 0 }))) ∧
     ((s.dev.lk k).st = .hello → exec (.linkLoss k) s =
       .next (s.withDev (s.dev.updLink k (fun l => { l with lossUp := true })))) ∧
     (s.dev.linked k = true → exec (.linkLoss k) s = .next (s.withDev (s.dev.enterLost s.now k)))) ∧
  (∀ (k tag turn edge p : Nat) (s : State), k < 52 → s.dev.linked k = true → (s.dev.lk k).echoReq = some (tag, p) →
     (let half : Int := (edge : Int) - 16 * p - turn + s.dev.asym k
      let win : Int := (bits (s.dev.rd (facetPage k) 0x28) 7 0 : Nat)
      ((s.dev.lk k).echoes = [] ∨
        (8 * half - (s.dev.lk k).delay ≤ 16 * win ∧ -(16 * win) ≤ 8 * half - (s.dev.lk k).delay)) →
      (let d := s.dev.updLink k (fun x =>
        { x with echoReq := none, rtt := ux 20 ((edge : Int) - 16 * p), turn := turn, asymF := s.dev.asym k })
       let d' := if (s.dev.lk k).asymF = s.dev.asym k then d else d.arrUpdate
       exec (.echo k tag turn edge) s = .next (s.withDev ((d'.updLink k (fun x =>
        { x with echoes := (half :: x.echoes).take 16, rejRun := [], nEcho := min 16 (x.nEcho + 1) })).setDelay k
          (s.dev.lk k).echoes.isEmpty)))))

/-- A Facet block boundary (R67, R74, R75, R86): every link starts the block with its word limits at zero and its block status
for the block, and each link that is linked then has exactly one ECHO_REQ more queued, with the block number modulo 16, behind what waits.
An upstream block status that is complete (R75, R76): with every bit taken and its CRC right, BS_STALE clears and the
node's state, PROFILE CRC and temperatures are taken; otherwise, where a bit is missing or the CRC fails, BS_ERR counts it;
before the third in a row nothing else follows, and the third sets BS_STALE. -/
def Obligations.BlocksStartAndStatusesAreTaken : Prop :=
  (∀ (n : Nat) (s : State), 2 ≤ n →
     ∃ t, exec (.blockBoundary n) s = .next t ∧ t.pending = s.pending ∧ t.clk = s.clk ∧ t.ring = s.ring ∧
       ∀ k, k < 52 → (t.dev.lk k).ctlN = 0 ∧ (t.dev.lk k).mgtN = 0 ∧ (t.dev.lk k).patN = 0 ∧ (t.dev.lk k).seen = false ∧
         (t.dev.linked k = true → (t.dev.lk k).mgtQ = (s.dev.lk k).mgtQ ++ [0xC40000 + n % 16])) ∧
  (∀ (k edge : Nat) (s : State), k < 52 → (s.dev.lk k).csB = true →
     (let l := s.dev.lk k
      let b := l.csBits
      (l.csTaken = 2 ^ 192 - 1 → crc16 b = bits b 191 176 →
        ∃ t, exec (.upstreamBlockStatus k edge) s = .next t ∧ t.pending = s.pending ∧ t.clk = s.clk ∧ t.ring = s.ring ∧
          (t.dev.lk k).bsBad = 0 ∧ (t.dev.lk k).bsStale = false ∧ (t.dev.lk k).upCrc = some (bits b 63 32) ∧
          (t.dev.lk k).nodeState = bits b 71 70 ∧
          (t.dev.lk k).temps = (s.now, sx 12 (bits b 91 80), sx 12 (bits b 103 92), sx 12 (bits b 115 104)) :: l.temps.take 7) ∧
      ((l.csTaken ≠ 2 ^ 192 - 1 ∨ crc16 b ≠ bits b 191 176) →
        (l.bsBad < 2 →
          exec (.upstreamBlockStatus k edge) s = .next (s.withDev ((s.dev.updLink k (fun x => { x with csB := false })).updLink k
            (fun x => { x with bsErr := sat1 16 x.bsErr, bsBad := min 3 (x.bsBad + 1), ntBad := 0 })))) ∧
        (l.bsBad = 2 →
          ∃ t, exec (.upstreamBlockStatus k edge) s = .next t ∧ t.pending = s.pending ∧ t.clk = s.clk ∧ t.ring = s.ring ∧
            t.dev.lk k = { l with csB := false, bsErr := sat1 16 l.bsErr, bsBad := 3, ntBad := 0, bsStale := true } ∧
            (∀ x, x ≠ k → t.dev.lk x = s.dev.lk x) ∧ t.dev.regs = s.dev.regs ∧ t.dev.hull = s.dev.hull))))

/-- Logging a node event (R120): NODE_LAST shows its code and position, the DEV event of its code is raised where it has one,
and the log entry takes the next sequence number or LOG_LOST counts it; no hold, stage or register changes.
Node events that bring a safe action (R96, R107, R108, R111, R112): each is logged with its code and position, counted where
the link has a counter, and then is the node fault of its code; an INTERLOCK with no other within 1 ms only waits for
one, and a UVLO outside the bootstrap positions faults at once. -/
def Obligations.NodeEventsAreLoggedAndFault : Prop :=
  (∀ (d : Dev) (k code pos age edge : Nat),
     (let t := d.nodeLog k code pos age edge
      (t.lk k).lastCode = code ∧ (t.lk k).lastPos = pos ∧ (∀ x, x ≠ k → t.lk x = d.lk x) ∧
      (∀ b, Dev.evBit code = some b → d.pageOn 0 = true → bit (t.pg 0).raw b = true) ∧
      (t.cap.logSeq = d.cap.logSeq + 1 ∨ t.cap.logLost = sat1 32 d.cap.logLost) ∧
      t.hull = d.hull ∧ t.boot = d.boot ∧ t.regs = d.regs ∧ t.chord = d.chord)) ∧
  (∀ (k pos age edge : Nat) (s : State), k < 52 →
     (let ts := s.dev.evTs k age edge
      exec (.desat k pos age edge) s = .next (s.withDev
        (((s.dev.nodeLog k 1 pos age edge).updLink k (fun l => { l with nDesat := sat1 8 l.nDesat })).nodeFault s.now k 1 ts)) ∧
      exec (.dcOv k pos age edge) s = .next (s.withDev
        (((s.dev.nodeLog k 5 pos age edge).updLink k (fun l => { l with nDcov := sat1 8 l.nDcov })).nodeFault s.now k 5 ts)) ∧
      exec (.nodeOt k pos age edge) s = .next (s.withDev ((s.dev.nodeLog k 7 pos age edge).nodeFault s.now k 7 ts)) ∧
      ((s.dev.nodeLog k 3 pos age edge).bootPos k pos = false →
        exec (.uvlo k pos age edge) s = .next (s.withDev
          (((s.dev.nodeLog k 3 pos age edge).updLink k (fun l => { l with nUvlo := sat1 8 l.nUvlo })).nodeFault s.now k 3 ts))) ∧
      ((s.dev.lk k).intlk = [] →
        exec (.interlock k pos age edge) s = .next (s.withDev (((s.dev.nodeLog k 2 pos age edge).updLink k (fun l =>
          { l with nIntlk := sat1 8 l.nIntlk, intlk := [ts] })).watchCause k))) ∧
      (48 ≤ k → exec (.bypFail k pos age edge) s = .next (s.withDev (s.dev.nodeLog k 9 pos age edge))) ∧
      (∀ str, k < 48 → (s.dev.nodeLog k 9 pos age edge).profC = false →
        ((s.dev.nodeLog k 9 pos age edge).faultDecide s.now k 9 ts).strOf k = some str →
        exec (.bypFail k pos age edge) s = .next (s.withDev
          (((s.dev.nodeLog k 9 pos age edge).faultDecide s.now k 9 ts).exhaust s.now str)))))

/-- Node events that bring none (R97, R99, R108, R111, R114, R120, R167, R254, R255): each is logged with its code and position;
SUPPLY_LOW has a cell leave under Profile S, CMD_REJ and an unlisted code count, BYP_DONE reports a withdrawal, the others
act on what waits for them; INTERLOCK reports kept for 2 ms expire.
Housekeeping words of a node (R119, Table 4.8) show in the link's registers and change nothing else. -/
def Obligations.OtherNodeEventsAndHousekeepingWordsAct : Prop :=
  (∀ (k code pos age edge : Nat) (s : State), k < 52 →
     exec (.chop k pos age edge) s = .next (s.withDev (s.dev.nodeLog k 6 pos age edge)) ∧
     exec (.testDone k pos age edge) s = .next (s.withDev (s.dev.nodeLog k 13 pos age edge)) ∧
     (k < 48 → (s.dev.nodeLog k 4 pos age edge).profC = false → exec (.supplyLow k pos age edge) s = .next (s.withDev
       ((s.dev.nodeLog k 4 pos age edge).updCell k (fun c => { c with leave := true })))) ∧
     (tget false (s.dev.nodeLog k 8 pos age edge).hull.withdrawn k = true →
       exec (.bypDone k pos age edge) s = .next (s.withDev (((s.dev.nodeLog k 8 pos age edge).modHull (fun h =>
         { h with withdrawn := tset false h.withdrawn k false })).raise 0x1E 2))) ∧
     exec (.cmdRej k pos age edge) s = .next (s.withDev ((((s.dev.nodeLog k 12 pos age edge).updLink k (fun l =>
       { l with nRej := sat1 16 l.nRej })).watchCause k).osReject k)) ∧
     ((code = 0 ∨ 13 < code) → exec (.unlistedCode k code pos age edge) s = .next (s.withDev
       ((s.dev.nodeLog k code pos age edge).updLink k (fun l => { l with nOther := sat1 16 l.nOther })))) ∧
     exec (.interlockExpiry k) s = .next (s.withDev (s.dev.updLink k (fun l =>
       { l with intlk := l.intlk.filter (fun t => decide (s.now ≤ t + 2000000)) })))) ∧
  (∀ (k pos v : Nat) (s : State), k < 52 →
     (posOk k pos = true →
       exec (.swdlyOn k pos v) s = .next (s.withDev (s.dev.updLink k (fun l => { l with dlyOn := tset 0 l.dlyOn pos v }))) ∧
       exec (.swdlyOff k pos v) s = .next (s.withDev (s.dev.updLink k (fun l => { l with dlyOff := tset 0 l.dlyOff pos v }))) ∧
       exec (.supplyV k pos v) s = .next (s.withDev (s.dev.updLink k (fun l => { l with supV := tset 0 l.supV pos v })))) ∧
     exec (.chopTime k v) s = .next (s.withDev (s.dev.updLink k (fun l => { l with chopT := v }))) ∧
     (k < 48 → exec (.bypState k v) s = .next (s.withDev (s.dev.updLink k (fun l => { l with byp := v % 4 })))))

/-- A command executes only when the oldest accepted command that has not begun is one of its opcode (R410): otherwise its
event leaves the state as it is (the model's choice, log entry 6).
The end of a command (R412, Table 16.6): its slot holds status, result and time, and waits for its completion entry behind
those that ended before; every other slot and everything else of the device stays; a slot that is free or has ended stays. -/
def Obligations.CommandsExecuteInOrderAndAwaitTheirEntries : Prop :=
  (∀ (s : State),
     (s.dev.nextCmd 0x01 = none → exec .cmdArm s = .next s) ∧ (s.dev.nextCmd 0x02 = none → exec .cmdDisarm s = .next s) ∧
     (s.dev.nextCmd 0x03 = none → exec .cmdTimeSet s = .next s) ∧ (s.dev.nextCmd 0x04 = none → exec .cmdCalibrate s = .next s) ∧
     (s.dev.nextCmd 0x08 = none → exec .cmdPrecharge s = .next s) ∧ (s.dev.nextCmd 0x09 = none → exec .cmdOffstateRun s = .next s) ∧
     (s.dev.nextCmd 0x0A = none → exec .cmdPilotRun s = .next s) ∧ (s.dev.nextCmd 0x10 = none → exec .cmdCtxLoad s = .next s) ∧
     (s.dev.nextCmd 0x11 = none → exec .cmdBankLoad s = .next s) ∧ (s.dev.nextCmd 0x12 = none → exec .cmdRespSwap s = .next s) ∧
     (s.dev.nextCmd 0x18 = none → exec .cmdCaptureRead s = .next s) ∧ (s.dev.nextCmd 0x19 = none → exec .cmdStoreWrite s = .next s) ∧
     (s.dev.nextCmd 0x20 = none → exec .cmdNvmWrite s = .next s)) ∧
  (∀ (d : Dev) (now n st res : Nat) (sl : Slot), d.slot n = some sl →
     (sl.ended = none → (d.endCmd now n st res).slot n = some { sl with ended := some (st, res, now) } ∧
       (d.endCmd now n st res).bus.ended = d.bus.ended ++ [n] ∧ (∀ m, m ≠ n → (d.endCmd now n st res).slot m = d.slot m) ∧
       ∃ b, d.endCmd now n st res = { d with bus := b }) ∧
     (sl.ended ≠ none → d.endCmd now n st res = d))

/-- CMD_ARM and CMD_DISARM, and the entry to RUN (R391 to R393). An arm that no condition refuses waits for the first block
boundary at least 20 µs ahead; at that boundary the stage becomes RUN, the trip and the disarm state end and the eligible
links enter ACTIVE; a disarm to OFF or ZERO puts every unheld unit in that state and drops the stage to READY. -/
def Obligations.ArmAndDisarmAct : Prop :=
  ∀ (n : Nat) (sl : Slot) (s : State),
    (s.dev.nextCmd 0x01 = some (n, sl) → sl.early = 0 → (s.dev.beginCmd n).armRefused s.now = false →
      s.dev.tDie < ((8 * s.dev.hull.tsdThr : Nat) : Rat) - 80 → s.dev.armBusy = false →
      exec .cmdArm s = .next (s.withDev ((s.dev.beginCmd n).modBoot (fun b =>
        { b with arming := some ((s.now + 20000 + 245759) / 245760, n) })))) ∧
    (∀ b, s.dev.boot.arming = some (b, n) → s.dev.boot.stage = .ready →
      exec (.armed b) s = .next (s.withDev (((((((s.dev.modBoot (fun x => { x with arming := none })).setStage s.now .run 1).modHull
        (fun h => { h with trip := false, disarm := .none, engStop := 0, kick := s.now })).each
          (allUnits.filter ((((s.dev.modBoot (fun x => { x with arming := none })).setStage s.now .run 1).modHull
            (fun h => { h with trip := false, disarm := .none, engStop := 0, kick := s.now })).mayActive)
        ) (fun d k => d.enterActive s.now k)).boundaryRest s.now)).endCmd s.now n 0))) ∧
    (s.dev.nextCmd 0x02 = some (n, sl) → (Dev.argLE sl 0 1 = 1 ∨ Dev.argLE sl 0 1 = 2) → s.dev.boot.stage = .run →
      s.dev.armBusy = false →
      ∃ t, exec .cmdDisarm s = .next t ∧ t.pending = s.pending ∧ t.clk = s.clk ∧ t.ring = s.ring ∧
        t.dev.boot.stage = .ready ∧ t.dev.boot.last = .run ∧ t.dev.boot.why = 2 ∧ t.dev.hull.hold = s.dev.hull.hold ∧
        t.dev.hull.disarm = (if Dev.argLE sl 0 1 = 1 then .off else .zero) ∧ t.dev.hull.cause = s.dev.hull.cause)

/-- CMD_TIME_SET, CMD_CALIBRATE and the calibrations' ends (R50, R414, R445): a time-set whose arguments hold, where the source is
not IRIG-B, is applied, sets SECS_VALID (in every mode, by the model's reading, log entry 39) and ends DONE; a calibration begins in READY, ends DONE within Table 18.9 with its
result kept, HW_FAULT outside it, and TIMEOUT when its time is over. -/
def Obligations.TimeSetAndCalibrateAct : Prop :=
  ∀ (n tgt : Nat) (sl : Slot) (res : List Int) (s : State),
    (s.dev.nextCmd 0x03 = some (n, sl) → s.dev.src ≠ 2 → s.dev.src ≠ 3 → Dev.argLE sl 0 8 ≤ s.now →
      s.now ≤ Dev.argLE sl 0 8 + 1000000000 → Dev.argLE sl 16 4 ≠ 0 → (s.dev.src = 1 → Dev.argLE sl 16 4 < 500000000) →
      exec .cmdTimeSet s = .next (s.withDev (((s.dev.beginCmd n).timeSet s.now (Dev.argLE sl 0 8) (Dev.argLE sl 8 8)
        (Dev.argLE sl 16 4)).endCmd s.now n 0)) ∧
      ((s.dev.beginCmd n).timeSet s.now (Dev.argLE sl 0 8) (Dev.argLE sl 8 8) (Dev.argLE sl 16 4)).locus.secsValid = true) ∧
    (s.dev.nextCmd 0x04 = some (n, sl) → 1 ≤ Dev.argLE sl 0 1 → Dev.argLE sl 0 1 ≤ 3 → s.dev.boot.stage = .ready →
      s.dev.boot.calib = none →
      exec .cmdCalibrate s = .next (s.withDev ((s.dev.beginCmd n).modBoot (fun b => { b with calib := some (Dev.argLE sl 0 1, n) })))) ∧
    (s.dev.boot.calib = some (tgt, n) →
      (Dev.calOk tgt res = true → exec (.calibrationEnd tgt res) s = .next (s.withDev (((s.dev.modBoot (fun b =>
        { b with calib := none })).modBoot (fun b => { b with calRes := tset [] b.calRes tgt res })).endCmd s.now n 0))) ∧
      (Dev.calOk tgt res = false → exec (.calibrationEnd tgt res) s = .next (s.withDev ((s.dev.modBoot (fun b =>
        { b with calib := none })).endCmd s.now n 0x20))) ∧
      exec .calibrateTimeout s = .next (s.withDev ((s.dev.modBoot (fun b => { b with calib := none })).endCmd s.now n 0x21)))

/-- The commands that move data begin (R217, R280, R317, R318): a CMD_CTX_LOAD, CMD_BANK_LOAD, CMD_STORE_WRITE or CMD_CAPTURE_READ
whose arguments hold, on a domain that is on, with nothing in its way and bus mastering enabled, is under way.
CMD_RESP_SWAP on a running channel that does not fade (R285, R287): to another compatible ROM response within the engine's
capacity it begins the cross-fade; to the response the channel has it ends DONE at once. -/
def Obligations.TransferAndSwapCommandsBegin : Prop :=
  (∀ (n : Nat) (sl : Slot) (s : State), s.dev.bus.busMaster = true →
     (let a := Dev.argLE sl
      (s.dev.nextCmd 0x10 = some (n, sl) → 1 ≤ a 0 1 → a 0 1 ≤ 63 → a 2 1 ≠ 0 → a 3 1 = 0 → a 8 8 % 2 = 0 → a 1 1 + a 2 1 ≤ 64 →
        s.dev.domOn 2 = true → sl.early ≠ 1 → (s.dev.cx (a 0 1)).load = none → (s.dev.cx (a 0 1)).st ≠ .fault →
        exec .cmdCtxLoad s = .next (s.withDev ((s.dev.beginCmd n).updCtx (a 0 1) (fun x => { x with load := some (n, false), loadVals := [] })))) ∧
      (s.dev.nextCmd 0x11 = some (n, sl) → a 0 1 ≤ 7 → 1 ≤ a 2 2 → a 2 2 ≤ 384 → (a 4 1 = 1 ∨ a 4 1 = 2 ∨ a 4 1 = 4) →
        a 6 2 ≤ 2 * (a 2 2 - 1) → a 8 1 = 0 → a 16 8 % 4 = 0 → s.dev.domOn 5 = true →
        (∀ k, k < 16 → (s.dev.beginCmd n).bankUsed (a 0 1) k = false) → tget none s.dev.prism.loading (a 0 1) = none →
        exec .cmdBankLoad s = .next (s.withDev ((s.dev.beginCmd n).modPrism (fun p =>
          { p with loading := tset none p.loading (a 0 1) (some (n, a 2 2, a 4 1, a 6 2)) })))) ∧
      (s.dev.nextCmd 0x19 = some (n, sl) → a 0 4 % 4 = 0 → a 4 4 ≠ 0 → a 8 8 % 4 = 0 → a 0 4 + a 4 4 ≤ s.dev.partBytes 4 →
        s.dev.domOn 7 = true → s.dev.partEn 4 = true → (s.dev.beginCmd n).storeInUse = false →
        exec .cmdStoreWrite s = .next (s.withDev ((s.dev.beginCmd n).modCap (fun c => { c with storeWr := c.storeWr ++ [(n, a 0 4, a 4 4)] })))) ∧
      (s.dev.nextCmd 0x18 = some (n, sl) → (s.dev.beginCmd n).crBad sl = none → a 1 1 = 0 → (a 0 1 = 2 → a 20 4 % 32 = 0) →
        s.dev.domOn 7 = true → s.dev.cap.reads.length < 4 →
        (let left := s.dev.crEnd sl - a 16 4
         exec .cmdCaptureRead s = .next (s.withDev ((s.dev.beginCmd n).modCap (fun c => { c with reads := c.reads ++
           [⟨n, a 0 1, a 8 8, a 16 4, a 20 4, a 24 8, min (a 20 4) left, decide (left < a 20 4), false⟩] }))))))) ∧
  (∀ (n k t len : Nat) (sl : Slot) (s : State), s.dev.nextCmd 0x12 = some (n, sl) → Dev.argLE sl 0 1 = k → Dev.argLE sl 1 1 = t →
     Dev.argLE sl 2 2 = len → k ≤ 15 → s.dev.chAux k = false → t ≤ 15 → s.dev.compat false (s.dev.respNow k) t = true →
     1 ≤ len → len ≤ 4096 → s.dev.domOn 5 = true → (s.dev.chan k).st = .running → (s.dev.chan k).fade = none →
     (t ≠ (s.dev.chan k).now → s.dev.demand + s.dev.demand1 k ≤ Dev.prismCap →
       exec .cmdRespSwap s = .next (s.withDev ((s.dev.beginCmd n).updChan k (fun c =>
         { c with fade := some { frm := c.now, dst := t, len := len, n := 0, slot := n } })))) ∧
     (t = (s.dev.chan k).now → exec .cmdRespSwap s = .next (s.withDev ((s.dev.beginCmd n).endCmd s.now n 0))))

/-- The ends of what moves data (R217, R280, R317, R318): coefficients that were read wait for the commit, with their places; a
bank takes its taps and coefficients as signed 24-bit words and the command ends DONE, or ends BAD_ARG where a word breaks the
sign rule; a readout's bytes go to host memory, its corrected ECC errors are counted (R320) and it ends DONE, or SHORT with the
bytes moved; a store write puts its bytes and ends DONE. -/
def Obligations.TransfersEnd : Prop :=
  ∀ (n c b slot corr : Nat) (sl : Slot) (ws : List Nat) (s : State), s.dev.slot n = some sl →
    ((s.dev.cx c).load = some (n, false) → Dev.argLE sl 3 1 = 0 → ws.length = Dev.argLE sl 2 1 →
      exec (.ctxLoadReadEnd c (.ok ws corr)) s = .next (s.withDev (s.dev.updCtx c (fun y => { y with
        load := some (n, true), loadVals := ws.zipIdx.map (fun p => (Dev.argLE sl 1 1 + p.2, sx 16 p.1)) })))) ∧
    (∀ taps rf gd2, tget none s.dev.prism.loading b = some (n, taps, rf, gd2) → Dev.argLE sl 8 1 = 0 → ws.length = taps →
      (let done := s.dev.modPrism (fun p => { p with loading := tset none p.loading b none })
       ((∀ w, w ∈ ws → w / 2 ^ 23 = 0 ∨ w / 2 ^ 23 = 2 ^ 9 - 1) →
         exec (.bankLoadEnd b (.ok ws corr)) s = .next (s.withDev ((done.modPrism (fun p => { p with
           bank := tset {} p.bank b ⟨true, taps, rf, gd2, ws.map (sx 24)⟩ })).endCmd s.now n 0))) ∧
       ((∃ w, w ∈ ws ∧ w / 2 ^ 23 ≠ 0 ∧ w / 2 ^ 23 ≠ 2 ^ 9 - 1) →
         exec (.bankLoadEnd b (.ok ws corr)) s = .next (s.withDev (done.endCmd s.now n 0x10))))) ∧
    (∀ r, s.dev.cap.reads.find? (fun x => x.slot == slot) = some r →
      exec (.captureReadEnd slot (.ok ws corr)) s = .next (s.withDev ((((((s.dev.modCap (fun x => { x with
        reads := x.reads.filter (fun q => q.slot != slot) })).readUnlock r.part r.recid).modCap (fun x => { x with
        eccC := satN 16 x.eccC corr })).modBus (fun x => { x with
        dma := (r.addr, s.dev.crBytes r) :: x.dma })).endCmd s.now slot (if r.short then 1 else 0) (if r.short then r.n else 0)).logDrain))) ∧
    (∀ off len rest, s.dev.cap.storeWr = (n, off, len) :: rest →
      exec (.storeWriteEnd (.ok ws corr)) s = .next (s.withDev (((s.dev.modCap (fun x => { x with storeWr := rest })).storePut off
        ((ws.flatMap (bytesLE 4)).take len)).endCmd s.now n 0)))

/-- CMD_NVM_WRITE and its end, and the save area (R250, R360, R415, R429, R430): the slot not loaded last loses its mark, whatever
the command ends with but DONE, and is being written where nothing refuses it; a write that verifies marks it with a new generation and ends DONE with the slot's number; a failed CRC leaves it
unmarked; a write during which the gate closed ends REFUSED_TEMP, its slot erased and unmarked, and no other does; a save
begins when no write runs and the gate is open, and its end is counted and raised. That WEAR counts a write that reached programming
alone and that a save takes its values at its end are log entry 57; that the end of a gate that did not close leaves the state is
log entry 6. -/
def Obligations.NvmWritesAndSavesAct : Prop :=
  ∀ (n slot : Nat) (sl : Slot) (img : Image) (s : State),
    (s.dev.nextCmd 0x20 = some (n, sl) → (s.dev.beginCmd n).nvmRefused sl = none → s.dev.bus.busMaster = true →
      exec .cmdNvmWrite s = .next (s.withDev (((s.dev.beginCmd n).setSlot (1 - s.dev.boot.nvmSlot) none).modNvm (fun v =>
        { v with writing := some (1 - s.dev.boot.nvmSlot, n), shut := !s.dev.therm.nvmOk })))) ∧
    (∀ st r, s.dev.nextCmd 0x20 = some (n, sl) → (s.dev.beginCmd n).nvmRefused sl = some (st, r) →
      exec .cmdNvmWrite s = .next (s.withDev ((((s.dev.beginCmd n).setSlot (1 - s.dev.boot.nvmSlot) none).endCmd s.now n st r).raise 0x3C 1))) ∧
    (s.dev.nvm.writing = some (slot, n) → s.dev.nvm.saveDue = false → s.dev.nvm.shut = true →
      ∀ r, exec (.writeEnd r) s = .next (s.withDev (((((s.dev.modNvm (fun v => { v with writing := none, shut := false })).wear
        slot).endCmd s.now n 0x14)).raise 0x3C 1))) ∧
    (s.dev.nvm.writing = some (slot, n) → s.dev.nvm.shut = false → exec (.writeEnd .gateClosed) s = .next s) ∧
    (s.dev.nvm.writing = some (slot, n) → s.dev.nvm.saveDue = false → s.dev.nvm.shut = false →
      (let d := s.dev.modNvm (fun v => { v with writing := none, shut := false })
       let g := max (Dev.nvmGen s.dev.nvm.a) (Dev.nvmGen s.dev.nvm.b) + 1
       exec (.writeEnd (.done img)) s = .next (s.withDev ((((d.setSlot slot (some (g, img))).wear slot).endCmd s.now n 0 slot).raise 0x3C 1)) ∧
       exec (.writeEnd .crcBad) s = .next (s.withDev ((d.endCmd s.now n 0x20).raise 0x3C 1)))) ∧
    (s.dev.domOn 9 = true → s.dev.awareUp = true → s.dev.nvm.saving = false → s.dev.nvm.writing = none → s.dev.therm.nvmOk = true →
      exec .ageingSave s = .next (s.withDev ((s.dev.modNvm (fun v => { v with saveDue := false })).modNvm (fun v => { v with saving := true })))) ∧
    (s.dev.nvm.saving = true →
      exec (.saved true) s = .next (s.withDev ((((((s.dev.modNvm (fun v => { v with saving := false })).saveArea).modNvm (fun v =>
        { v with done := sat1 16 v.done, saveTs := s.now })).modMod (fun m => { m with saveLate := false })).raise 0x3C 0))) ∧
      exec (.saved false) s = .next (s.withDev ((s.dev.modNvm (fun v => { v with saving := false })).raise 0x3C 2)))

/-- Precharge (R114): an accepted CMD_PRECHARGE sends each cell its target and is under way; it ends TIMEOUT at its time, HW_FAULT
where a selected cell's node reports failure, and DONE where the last cell reports done. -/
def Obligations.PrechargeRunsAndEnds : Prop :=
  ∀ (n k pos age edge : Nat) (sl : Slot) (p : Pre) (s : State),
    (let cells := Dev.preMask sl
     let target := Dev.argLE sl 6 2 % 32768
     let lim := if s.dev.profC then min (s.dev.fld 0 0x64 15 0) (s.dev.fld 0 0x68 15 0) else s.dev.fld 0 0x64 15 0
     s.dev.nextCmd 0x08 = some (n, sl) → cells ≠ [] → (∀ x, x ∈ cells → (s.dev.strOf x).isSome = true) → target ≠ 0 →
     2 * target < lim → Dev.argLE sl 8 2 ≠ 0 → Dev.argLE sl 8 2 ≤ 60000 → s.dev.readyRun = true →
     (∀ x, x ∈ cells → (s.dev.lk x).st = .standby ∧ s.dev.holdOf x ≠ .bypass) → sl.early = 0 → s.dev.pre = [] →
     ∃ d, d = (s.dev.beginCmd n).each cells (fun d x => d.queueCtl x (ctlWord 0x02 (32768 + target))) ∧
       exec .cmdPrecharge s = .next (s.withDev { d with pre := [⟨n, cells, cells, s.now, Dev.argLE sl 8 2⟩] })) ∧
    (s.dev.pre = [p] → exec (.prechargeTimeout p.slot) s = .next (s.withDev (s.dev.preEnd s.now p 0x21))) ∧
    (s.dev.pre = [p] → k < 52 → p.cells.contains k = true →
      exec (.preFail k pos age edge) s = .next (s.withDev ((s.dev.nodeLog k 11 pos age edge).preEnd s.now
        { p with left := p.left.filter (· != k) } 0x20))) ∧
    (s.dev.pre = [p] → k < 52 → p.left = [k] →
      ∃ d, exec (.preDone k pos age edge) s = .next (s.withDev (d.preEnd s.now { p with left := [] } 0)) ∧
        d = { s.dev.nodeLog k 10 pos age edge with pre := [{ p with left := [] }] })

/-- Load diagnostics (R253 to R256, R259, R261): an accepted CMD_OFFSTATE_RUN is under way on the links it selects with their old
results gone; a reading for the injection under way, or its absence, is taken as its result; an accepted CMD_PILOT_RUN is
under way with its arguments; the first window only settles; the run's end ends its command and its tone. -/
def Obligations.DiagnosticRunsAct : Prop :=
  ∀ (n k pos : Nat) (v : Int) (sl : Slot) (s : State),
    (s.dev.nextCmd 0x09 = some (n, sl) → Dev.osMask sl ≠ [] → s.dev.readyRun = true → s.dev.domOn 9 = true →
      s.dev.diag.os.running = false →
      (∀ x, x ∈ Dev.osMask sl → (s.dev.lk x).st = .standby ∧ bits (s.dev.lk x).dsStatus 111 108 < 2 ∧ s.dev.vdcHigh x = false) →
      s.dev.pre = [] →
      ∃ t, exec .cmdOffstateRun s = .next t ∧ t.pending = s.pending ∧ t.clk = s.clk ∧ t.ring = s.ring ∧
        t.dev.diag.os.running = true ∧ t.dev.diag.os.slot = n ∧ t.dev.diag.os.links = Dev.osMask sl ∧ t.dev.regs = s.dev.regs ∧
        t.dev.hull = s.dev.hull) ∧
    exec (.injectionTimeout k) s = .next (s.withDev (s.dev.osResult s.now k none)) ∧
    (osPos (tget 0 s.dev.diag.os.inj k - 1) = pos →
      exec (.testResult k pos v) s = .next (s.withDev (s.dev.osResult s.now k (some v)))) ∧
    (∀ mode f nc na amp, s.dev.nextCmd 0x0A = some (n, sl) → Dev.argLE sl 0 1 = k → Dev.argLE sl 1 1 = mode →
      Dev.argLE sl 2 2 = amp → Dev.argLE sl 4 2 = f → Dev.argLE sl 6 2 = nc → Dev.argLE sl 8 1 = na →
      k ≤ 47 → mode = 2 → 1 ≤ amp → amp ≤ s.dev.fld 0x35 0x64 15 0 → 200 ≤ f → f ≤ 5000 →
      (let f0 := if s.dev.flag 0x35 0x60 8 then 60 else 50
       10 < f % f0 ∧ f % f0 + 10 < f0) → 4 * f * s.dev.lat.tc ≤ 1000000000 → 16 ≤ nc → nc ≤ 4096 → 2 ≤ na → na ≤ 64 →
      s.dev.boot.stage = .run → s.dev.domOn 9 = true → (s.dev.vc k).role = .sharing → s.dev.flag 0x1E 0x400 0 = true →
      s.dev.wset k ≠ 0 → s.dev.diag.pt.running = false →
      exec .cmdPilotRun s = .next (s.withDev ((s.dev.beginCmd n).modPt (fun _ =>
        { running := true, slot := n, cell := k, mode := mode, amp := amp, freq := f, ncyc := nc, navg := na })))) ∧
    (s.dev.diag.pt.running = true → s.dev.diag.pt.win = 0 → s.dev.diag.pt.t0 ≠ none → s.dev.diag.pt.navg ≠ 0 →
      ∃ t, exec .pilotWindowEnd s = .next t ∧ t.dev.diag.pt.win = 1 ∧ t.dev.diag.pt.running = true ∧
        t.dev.diag.pt.discarded = s.dev.diag.pt.discarded ∧ t.dev.diag.pt.h1 = s.dev.diag.pt.h1 ∧
        t.dev.diag.pt.h2 = s.dev.diag.pt.h2 ∧ t.dev.regs = s.dev.regs) ∧
    (s.dev.diag.pt.running = true →
      ∃ t, exec .pilotRunEnd s = .next t ∧ t.dev.diag.pt.running = false ∧ t.dev.diag.pt.tone = 0 ∧ t.dev.hull = s.dev.hull ∧
        t.dev.link = s.dev.link)

/-- The stages' own events (R369, R372, R374, R380): a passed SAFE check turns PD1 on and enters SAFE, a failed one leaves RESET as
it is; a self-test with no failed item leads from AWARE to READY, one with a failed domain item to HALT; an accepted warm
reset turns the domains off and enters AWARE; Hull is armed once; the first load's NVM image is taken once an AWARE.
A change of stage (R370): STAGE, LAST and WHY; every expert region relocks when the stage falls or becomes COOLDOWN or
HALT, and no hold, cause, link or context changes. -/
def Obligations.StagesChangeAndAreRecorded : Prop :=
  (∀ (s : State),
     (s.dev.boot.stage = .reset → s.dev.boot.por = false → s.dev.hull.tsdReset = false →
       exec (.safeEntry true) s = .next (s.withDev (s.dev.hostOn.setStage s.now .safe 0)) ∧
       exec (.safeEntry false) s = .next s) ∧
     (s.dev.boot.stage = .aware → s.dev.boot.loaded = true →
       exec (.selfTestEnd 0) s = .next (s.withDev (s.dev.setStage s.now .ready 7)) ∧
       (∃ t, exec (.selfTestEnd 1) s = .next t ∧ t.pending = s.pending ∧ t.clk = s.clk ∧ t.ring = s.ring ∧
         t.dev.boot.stage = .halt ∧ t.dev.boot.why = 8 ∧ t.dev.boot.stFail = 1)) ∧
     (s.dev.boot.warm = true →
       exec .warmReset s = .next (s.withDev ((s.dev.each [9, 8, 6, 5, 4, 3, 2] (fun d pd => d.ownOff s.now pd)).enterAware s.now 9)) ∧
       ((s.dev.each [9, 8, 6, 5, 4, 3, 2] (fun d pd => d.ownOff s.now pd)).enterAware s.now 9).boot.stage = .aware) ∧
     (s.dev.boot.armed = false → s.dev.boot.por = false →
       exec .hullArmed s = .next (s.withDev ((s.dev.modBoot (fun b => { b with armed := true })).pinTrig s.dev s.now))) ∧
     (s.dev.boot.stage = .aware → s.dev.boot.loaded = false → s.dev.boot.firstLoad = true →
       exec .nvmLoadEnd s = .next (s.withDev ((s.dev.nvmPick.loadReq s.now).modBoot (fun b => { b with loaded := true }))))) ∧
  (∀ (d : Dev) (now why : Nat) (st : Stage),
     (let t := d.setStage now st why
      t.boot.stage = st ∧ t.boot.last = d.boot.stage ∧ t.boot.why = why ∧ t.boot.warm = false ∧ t.hull = d.hull ∧
        t.link = d.link ∧ t.lat = d.lat ∧ t.regs = d.regs ∧
        ((st.rank < d.boot.stage.rank ∨ st = .cooldown ∨ st = .halt) → ∀ p, p < 64 → (t.pg p).unlocked = false)))

/-- Hull's own events (R381, R384, R385, R386, R387): a shutdown crossing, the commit watchdog's violations, a missed KICK and
SAFE_N each latch their cause with its action; SAFE_N asserts BRK_TRIP first, which is a HULL trigger (Table 12.5), where FAULT_N
is asserted already or does not follow it, and the two are one trigger otherwise; SAFE_N, TSD_LIVE and CONSENT_OK end by their own
events. -/
def Obligations.HullEventsAct : Prop :=
  ∀ (n : Nat) (s : State),
    (s.dev.hull.tsdLive = false → s.dev.boot.armed = true → exec .thermalShutdown s =
      .next (s.withDev ((s.dev.modHull (fun h => { h with tsdLive := true, tsdCount := sat1 16 h.tsdCount, cool := 0 })).latch s.now 7))) ∧
    (s.dev.domOn 2 = true → s.dev.readyRun = true → 0 < n → exec (.wdog n) s =
      .next (s.withDev ((s.dev.modHull (fun h => { h with wdog := satN 16 h.wdog n })).latch s.now 5))) ∧
    (s.dev.boot.stage = .run → s.dev.fld 2 0x64 15 0 ≠ 0 → s.dev.hull.kick + s.dev.fld 2 0x64 15 0 * 1000000 ≤ s.now →
      exec .hostwd s = .next (s.withDev (s.dev.latch s.now 9))) ∧
    ((s.dev.boot.stage ≠ .run ∨ s.dev.fld 2 0x64 15 0 = 0) → exec .hostwd s = .next s) ∧
    (s.dev.hull.safeN = false → s.dev.boot.por = false →
      ((s.dev.faultN = true ∨ s.dev.flag 2 0x20 6 = false) → exec .safeN s =
        .next (s.withDev (((s.dev.modHull (fun h => { h with safeN := true })).pinTrig s.dev s.now).latch s.now 6))) ∧
      (s.dev.faultN = false → s.dev.flag 2 0x20 6 = true → exec .safeN s =
        .next (s.withDev ((s.dev.modHull (fun h => { h with safeN := true })).latch s.now 6)))) ∧
    exec .safeNRelease s = .next (s.withDev (s.dev.modHull (fun h => { h with safeN := false }))) ∧
    exec .tsdLiveClear s = .next (s.withDev (s.dev.modHull (fun h => { h with tsdLive := false }))) ∧
    exec .consentExpiry s = .next (s.withDev (s.dev.modHull (fun h =>
      { h with consent := h.consent.filter (fun e => decide (s.now < e)) })))

/-- Latching a cause (R13, R378): its bit is set and no other clears; the first cause and its instant are kept from the first latch
after all were clear; HULL's event of the cause is raised; no hold, stage or link changes.
Placing a hold (R29, R375): the unit takes it unless the hold it has is as severe, a leg is never held in BYPASS, and no
other unit's hold changes.
A node fault on a leg places OFF on that leg, on a cell of no string OFF under Profile C and BYPASS under Profile S; under
Profile C a cell's fault exhausts its string (R111, R112). -/
def Obligations.HullDecisionsPlaceHoldsAndCauses : Prop :=
  (∀ (d : Dev) (now n ts : Nat),
     (let t := d.latchBit now n ts
      bit t.hull.cause n = true ∧ (∀ m, m ≠ n → bit t.hull.cause m = bit d.hull.cause m) ∧
        (d.hull.cause = 0 → t.hull.first = 2 ^ 31 + n ∧ t.hull.ts = ts) ∧
        (d.hull.cause ≠ 0 → t.hull.first = d.hull.first ∧ t.hull.ts = d.hull.ts) ∧
        (d.pageOn 2 = true → bit (t.pg 2).raw n = true) ∧ t.hull.hold = d.hull.hold ∧ t.boot = d.boot ∧ t.link = d.link)) ∧
  (∀ (d : Dev) (now u : Nat) (h : Hold),
     (let g : Hold := if isLeg u && h == .bypass then .off else h
      let t := d.placeRaw now u h
      (t.holdOf u = if g.rank ≤ (d.holdOf u).rank then d.holdOf u else g) ∧
        (∀ x, x ≠ u → t.holdOf x = d.holdOf x) ∧ t.hull.cause = d.hull.cause ∧ t.boot.stage = d.boot.stage ∧ t.lat = d.lat)) ∧
  (∀ (d : Dev) (now u code ts : Nat),
     (let f := d.faultDecide now u code ts 0
      (48 ≤ u → d.nodeFault now u code ts = f.place now u .off) ∧
      (u < 48 → f.strOf u = none → d.nodeFault now u code ts = f.place now u (if f.profC then .off else .bypass)) ∧
      (∀ str, u < 48 → f.strOf u = some str → f.profC = true → d.nodeFault now u code ts = f.exhaust now str) ∧
      (∀ str, u < 48 → f.strOf u = some str → f.profC = false → (f.place now u .bypass).flag 0 0x60 0 = false →
        d.nodeFault now u code ts = f.place now u .bypass)))

/-- The power-on reset and its release (R31, R435, R436): the reset leaves only the NVM's contents and the model's own records,
with the ring as at reset; its release starts SYSCNT at 0, and without REFCLK Locus loses it at once. That the host's queue stands,
that the ring restarts, what the model's own records are, and that SYSCNT stands while the reset holds are the model's choices
(log entries 3, 58 and 62). -/
def Obligations.PowerOnResetClearsTheDevice : Prop :=
  ∀ (refclk : Bool) (s : State),
    (∃ t, exec .powerOnReset s = .next t ∧ t.pending = s.pending ∧ t.clk = s.clk ∧ t.ring = State.reset.ring ∧
      t.dev.regs = [] ∧ t.dev.pages = [] ∧ t.dev.hull = {} ∧ t.dev.boot = { por := true } ∧ t.dev.link = [] ∧ t.dev.lat = {} ∧
      t.dev.nvm.a = s.dev.nvm.a ∧ t.dev.nvm.b = s.dev.nvm.b ∧ t.dev.nvm.ages = s.dev.nvm.ages) ∧
    (s.dev.boot.por = true →
      exec (.powerOnResetRelease true) s = .next { s with clk := {}, dev := s.dev.powerOn.modBoot (fun b => { b with por := false }) } ∧
      ∃ t, exec (.powerOnResetRelease refclk) s = .next t ∧ t.clk.cnt = 0 ∧ t.dev.boot.por = false ∧ t.ring = s.ring)

/-- Power domains (R362, R403, R416, R421, R425). A domain that is turning on sets its ON bit; before any load every register of its
pages reads its reset value, but for the baselines, which the save area gives (R263), and every other page's as before; then, in AWARE
and above, the NVM image's entries for it are loaded, and with no image nothing; then its pages are READY, with no register
changed. One that is turning off clears its ON bit, and the events and keys of its pages are gone. -/
def Obligations.DomainsTurnOnAndOff : Prop :=
  ∀ (pd : Nat) (s : State), 2 ≤ pd → pd ≤ 9 → bit s.dev.pwr.trans pd = true →
    (bit s.dev.pwr.rising pd = true →
      (let start := s.dev.domainStart pd
       let load := start.domainLoad s.now pd
       start.domOn pd = true ∧ bit start.pwr.trans pd = false ∧ start.hull.hold = s.dev.hull.hold ∧
         (∀ p o, p < 64 → o < 4096 → pageDomain p = some pd →
           (p = 0x35 → ∀ e, e ∈ s.dev.nvm.base → o ≠ Dev.ptBase (e.1 / 64) (e.1 % 64)) →
           start.rd p o = rstAt (p * 4096 + o) % 2 ^ 32) ∧
         (∀ p o, p < 64 → o < 4096 → pageDomain p ≠ some pd → start.rd p o = s.dev.rd p o) ∧
         ((s.dev.awareUp = false ∨ s.dev.image = none) → load = start) ∧
         (s.dev.awareUp = true → load = (start.loadPages s.now (domPages pd)).loadBlock s.now pd) ∧
         ∃ t, exec (.domainOn pd) s = .next t ∧ t.pending = s.pending ∧ t.clk = s.clk ∧ t.ring = s.ring ∧
           t.dev.regs = load.regs ∧ t.dev.pwr = load.pwr ∧ t.dev.hull = load.hull ∧
           (∀ p, p < 64 → pageDomain p = some pd → (t.dev.pg p).ready = true))) ∧
    (bit s.dev.pwr.rising pd = false → s.dev.flag 1 0x20 pd = false → (pd ≠ 8 ∨ s.dev.pwr.fadeOff = false) →
      ∃ t, exec (.domainOff pd) s = .next t ∧ t.pending = s.pending ∧ t.clk = s.clk ∧ t.ring = s.ring ∧
        t.dev.domOn pd = false ∧ bit t.dev.pwr.trans pd = false ∧ t.dev.hull.hold = s.dev.hull.hold ∧
        (∀ p, p < 64 → pageDomain p = some pd → t.dev.pg p = {}))

/-- A housekeeping round (R345): outside RESET it takes the supply readings and the core current, shows its number and the
largest die reading, in one step (log entry 59); in RESET it does nothing (log entry 6). -/
def Obligations.HousekeepingRoundIsOneStep : Prop :=
  ∀ (n : Nat) (h : HkData) (s : State),
    (s.dev.boot.stage = .reset → exec (.housekeepingRound n h) s = .next s) ∧
    (s.dev.boot.stage ≠ .reset → s.dev.boot.por = false →
      ∃ t, exec (.housekeepingRound n h) s = .next t ∧ t.pending = s.pending ∧ t.clk = s.clk ∧ t.ring = s.ring ∧
        t.dev.therm.round = n ∧ t.dev.therm.sup = h.sup ∧ t.dev.therm.icore = h.icore ∧ t.dev.hull.coolMax = maxI 0 h.die)

/-- Locus's timed events (R42 to R45, R48 to R50, R52, R53). A PPS edge in the first row of ACQUIRE steps OFFSET by the negative of
its phase error; one in LOCKED within STEP_THRESH is taken, OFFSET standing, and steers the trim's target within its
limits; one less than half a second after the last is rejected and counted. A condemned IRIG frame is only counted; a good
one beside PPS that agrees with TAI gives the time quality, and one that alone disagrees gives nothing yet. HOLDOVER and the time-set timeout freeze the source and start the error estimate.
That an early edge is rejected in LOCKED alone, and HOLDOVER entered from LOCKED alone, are the model's readings (log
entries 18 and 60); so are that a single disagreeing frame is held and not counted yet (log entries 40 and 69) and that the error
estimate in HOST counts from the last time-set (log entry 39). -/
def Obligations.TimeSourceEventsAct : Prop :=
  ∀ (edge : Nat) (f : IrigFrame) (s : State), 1 ≤ s.dev.stage.rank →
    (let ph := s.dev.phaseOf (edge / 16)
     ((s.dev.src = 1 ∨ s.dev.src = 2) → s.dev.locus.st = .acquire → s.dev.locus.row = 0 →
       ∃ t, exec (.ppsEdge edge) s = .next t ∧ t.pending = s.pending ∧ t.clk = s.clk ∧ t.ring = s.ring ∧
         t.dev.locus.offset = ux 64 ((s.dev.locus.offset : Int) - ph) ∧ t.dev.locus.row = 1 ∧
         t.dev.locus.lastEdge = edge ∧ t.dev.locus.phase = ph ∧ t.dev.locus.st = .acquire ∧ t.dev.locus.trim = s.dev.locus.trim ∧
         t.dev.regs = s.dev.regs ∧ t.dev.hull = s.dev.hull) ∧
     ((s.dev.src = 1 ∨ s.dev.src = 2) → s.dev.locus.st = .locked → s.dev.locus.lastEdge / 16 + 500000000 ≤ edge / 16 →
       ph ≤ s.dev.stepThresh → -s.dev.stepThresh ≤ ph →
       ∃ t, exec (.ppsEdge edge) s = .next t ∧ t.pending = s.pending ∧ t.clk = s.clk ∧ t.ring = s.ring ∧
         t.dev.locus.offset = s.dev.locus.offset ∧ t.dev.locus.lastEdge = edge ∧ t.dev.locus.phase = ph ∧
         t.dev.locus.st = .locked ∧ t.dev.locus.trim = s.dev.locus.trim ∧ -34359738 ≤ t.dev.locus.target ∧
         t.dev.locus.target ≤ 34359738 ∧ t.dev.regs = s.dev.regs ∧ t.dev.hull = s.dev.hull) ∧
     ((s.dev.src = 1 ∨ s.dev.src = 2) → s.dev.locus.st = .locked → edge / 16 < s.dev.locus.lastEdge / 16 + 500000000 →
       exec (.ppsEdge edge) s = .next (s.withDev ((((s.dev.modLocus (fun l =>
         { l with ppsRej := sat1 32 l.ppsRej, recov := 0 })).raise 3 5).modLocus (fun l => { l with rej := [] })))))) ∧
    ((s.dev.src = 2 ∨ s.dev.src = 3) → s.dev.locus.st ≠ .fault → Dev.irigBad f = true →
      exec (.irigFrame f) s = .next (s.withDev ((s.dev.modLocus (fun l => { l with irigErr := sat1 32 l.irigErr })).raise 3 6))) ∧
    (s.dev.src = 2 → s.dev.locus.st ≠ .fault → Dev.irigBad f = false → s.dev.irigFar f = false →
      ∃ t, exec (.irigFrame f) s = .next t ∧ t.pending = s.pending ∧ t.clk = s.clk ∧ t.ring = s.ring ∧
        t.dev.locus.irigTs = some s.now ∧ t.dev.locus.st = s.dev.locus.st ∧ t.dev.locus.trim = s.dev.locus.trim ∧
        t.dev.hull = s.dev.hull ∧
        (s.dev.irigDis f = 0 → t.dev.locus.offset = s.dev.locus.offset ∧ t.dev.locus.disagree = none ∧
          t.dev.locus.srcTq = (match f.cf with
            | some c => c.tq
            | none => 15)) ∧
        (s.dev.irigDis f ≠ 0 → s.dev.locus.disagree = none → t.dev.locus.offset = s.dev.locus.offset ∧
          t.dev.locus.srcTq = s.dev.locus.srcTq ∧ t.dev.locus.irigErr = s.dev.locus.irigErr ∧ t.dev.regs = s.dev.regs ∧
          t.dev.locus.disagree = some (s.dev.irigDis f))) ∧
    (s.dev.locus.st = .locked → s.dev.src ≠ 0 → s.dev.src ≠ 4 →
      ∃ t e, exec .holdover s = .next t ∧ t.pending = s.pending ∧ t.clk = s.clk ∧ t.ring = s.ring ∧
        t.dev.locus.st = .holdover ∧ t.dev.locus.offset = s.dev.locus.offset ∧ t.dev.locus.trim = s.dev.locus.trim ∧
        t.dev.locus.e0 = some (e, s.dev.locus.lastEdge / 16) ∧ t.dev.locus.entryTq = s.dev.locus.tq ∧
        t.dev.locus.leftLock = some s.now ∧ t.dev.regs = s.dev.regs ∧ t.dev.hull = s.dev.hull) ∧
    (∀ ts, s.dev.locus.st = .locked → s.dev.src = 4 → s.dev.locus.setTs = some ts →
      ∃ t, exec .timeSetTimeout s = .next t ∧ t.pending = s.pending ∧ t.clk = s.clk ∧ t.ring = s.ring ∧
        t.dev.locus.st = .holdover ∧ t.dev.locus.offset = s.dev.locus.offset ∧ t.dev.locus.trim = s.dev.locus.trim ∧
        t.dev.locus.e0 = some (30 + s.dev.locus.errNs, ts) ∧ t.dev.regs = s.dev.regs ∧ t.dev.hull = s.dev.hull) ∧
    (∃ t, exec .tqChg s = .next t ∧ t.pending = s.pending ∧ t.clk = s.clk ∧ t.ring = s.ring ∧
      t.dev.locus.tq = s.dev.tqAt s.now ∧ t.dev.locus.st = s.dev.locus.st ∧ t.dev.locus.offset = s.dev.locus.offset ∧
      t.dev.regs = s.dev.regs ∧ t.dev.hull = s.dev.hull)

/-- Leap seconds and REFCLK (R38, R55): a pending positive leap second is active from its start; its end moves TAI_UTC by one,
clears PEND, after a negative one too (log entry 70), and shows the leap as occurred until 86,400 s have passed. The loss of REFCLK puts Locus in FAULT and latches REFCLK;
its return lets Locus acquire the source afresh, OFFSET and the trim standing. -/
def Obligations.LeapAndReferenceClockEventsAct : Prop :=
  ∀ (s : State),
    (s.dev.leapPend = true → s.dev.leapNeg = false →
      exec .leapSecondStart s = .next (s.withDev (s.dev.modLocus (fun l => { l with active := true })))) ∧
    (s.dev.leapPend = true → (s.dev.leapNeg = true ∨ s.dev.locus.active = true) →
      ∃ t, exec .leapDone s = .next t ∧ t.pending = s.pending ∧ t.clk = s.clk ∧ t.ring = s.ring ∧
        t.dev.taiUtc = (if s.dev.leapNeg then s.dev.taiUtc + 255 else s.dev.taiUtc + 1) % 256 ∧ t.dev.leapPend = false ∧
        t.dev.locus.active = false ∧ t.dev.locus.occurred = some s.now ∧ t.dev.locus.offset = s.dev.locus.offset ∧
        t.dev.locus.st = s.dev.locus.st ∧ t.dev.hull = s.dev.hull ∧
        (∀ p o, p * 4096 + o ≠ 0x304C → t.dev.rd p o = s.dev.rd p o)) ∧
    exec .leapOccurredEnd s = .next (s.withDev (s.dev.modLocus (fun l => { l with occurred := none }))) ∧
    (s.dev.locus.refOk = true →
      (let d := (s.dev.modLocus (fun l => { l with refOk := false, freeLost := true })).locusGo s.now .fault
       exec .refclkLoss s = .next (s.withDev ((d.raise 3 7).latch s.now 8)) ∧ d.locus.st = .fault ∧ d.locus.refOk = false ∧
         d.locus.tq = 15 ∧ d.locus.offset = s.dev.locus.offset)) ∧
    (s.dev.locus.refOk = false →
      ∃ t, exec .refclkReturn s = .next t ∧ t.pending = s.pending ∧ t.clk = s.clk ∧ t.ring = s.ring ∧
        t.dev.locus.refOk = true ∧ t.dev.locus.st = (if s.dev.src = 0 then .free else .acquire) ∧
        t.dev.locus.offset = s.dev.locus.offset ∧ t.dev.locus.trim = s.dev.locus.trim ∧ t.dev.regs = s.dev.regs ∧
        t.dev.hull = s.dev.hull)

/-- The measurement clock (R268, R282, R283, R303): acquisition starts the channels that wait for it; its loss or a period out of
range puts every channel that is not STOPPED, and the wavefront path, into waiting, with no valid output. That LOSS and
RANGE read 0 from the next acquisition on is the model's reading (log entry 20), and so is what a channel shows from its restart
to c0 (log entry 79). -/
def Obligations.MeasurementClockEventsAct : Prop :=
  ∀ (pbar : EdgeMean) (s : State), s.dev.domOn 5 = true → s.dev.clkMode = 2 →
    (s.dev.prism.acq = false →
      ∃ t, exec (.clockAcquired pbar) s = .next t ∧ t.pending = s.pending ∧ t.clk = s.clk ∧ t.ring = s.ring ∧
        t.dev.prism.acq = true ∧ t.dev.prism.loss = false ∧ t.dev.prism.range = false ∧ t.dev.prism.pbar = pbar ∧ t.dev.regs = s.dev.regs ∧ t.dev.hull = s.dev.hull ∧
        (∀ k, k < 16 → (t.dev.chan k).st = if (s.dev.chan k).st = .waitClk then .restarting else (s.dev.chan k).st) ∧
        (s.dev.wave.waitClk = true → t.dev.wave.running = true ∧ t.dev.wave.skip = 3)) ∧
    (∀ e, (e = Instr.clkLoss ∨ e = Instr.clkRange) →
      ∃ t, exec e s = .next t ∧ t.pending = s.pending ∧ t.clk = s.clk ∧ t.ring = s.ring ∧ t.dev.prism.acq = false ∧
        (e = Instr.clkLoss → t.dev.prism.loss = true) ∧ (e = Instr.clkRange → t.dev.prism.range = true) ∧
        t.dev.regs = s.dev.regs ∧ t.dev.hull = s.dev.hull ∧
        (∀ k, k < 16 → (t.dev.chan k).st = if (s.dev.chan k).st = .stopped then .stopped else .waitClk) ∧
        (∀ k, k < 16 → (s.dev.chan k).st ≠ .stopped → (s.dev.chan k).st ≠ .waitClk →
          (t.dev.chan k).valid = false ∧ (t.dev.chan k).wait = [] ∧ (t.dev.chan k).fade = none ∧ (t.dev.chan k).pend = none) ∧
        t.dev.wave.running = false ∧ (s.dev.wave.running = true → t.dev.wave.waitClk = true))

/-- A channel's outputs (R272 to R275, R277, R282, R286). At c0, a clock of its grid at least 1 µs after the start, the CIC state
clears and the channel is SETTLING with the bits its delay line holds; what completes at c0 or before is no output. A CIC output
takes its bits into the delay line, integrates those of DLY clocks before and keeps the scaled, saturated difference. A FIR output of a channel that does not fade is the saturated sum of its response
over that history, with its stamp; one that fades mixes both responses by n of LEN; outputs before the settling count are
not kept. Publication takes the oldest, makes the channel RUNNING and its output valid. No other channel changes. That the delay
line's bits come with the command at c0, and that one before its microsecond or off the grid does nothing, are log entry 79; the
edge's stamp and mean are log entry 20. -/
def Obligations.ChannelOutputsFollow : Prop :=
  (∀ (k c : Nat) (line : List Bool) (s : State), s.dev.domOn 5 = true → s.dev.clkOk = true →
     ((s.dev.chan k).st = .starting ∨ (s.dev.chan k).st = .restarting) → (s.dev.chan k).start ≤ s.now →
     ((c : Int) - k) % (s.dev.outClks k : Int) = 0 → ((s.dev.chan k).c0 = none ∨ (s.dev.chan k).c0 = some c) → line.length = 1023 →
     exec (.channelSettleStart ⟨k, c, line⟩) s = .next (s.withDev (s.dev.updChan k (fun y => { y with
       st := .settling, c0 := some c, line := line, i1 := 0, i2 := 0, i3 := 0, p3 := 0, p1 := 0, p2 := 0, hist := [], nOut := 0
       wait := [], pub := [], nPub := 0 })))) ∧
  ∀ (k c ts : Nat) (pbar : EdgeMean) (bs : List Bool) (s : State), k < 16 → s.dev.active k = true →
    (let x := s.dev.chan k
     (s.dev.pastC0 k c = false → exec (.cicOutput k c bs) s = .next s ∧ exec (.firOutput k c ts pbar) s = .next s) ∧
     (s.dev.pastC0 k c = true → bs.length = s.dev.chRc k → ((c : Int) - k) % (s.dev.chRc k : Int) = 0 →
       (let line := bs.reverse ++ x.line
        let i := ((line.drop (s.dev.chDly k)).take bs.length).reverse.foldl cicBit (x.i1, x.i2, x.i3)
        let c1 := i.2.2 - x.p3
        let c2 := c1 - x.p1
        ∃ t, exec (.cicOutput k c bs) s = .next t ∧ t.pending = s.pending ∧ t.clk = s.clk ∧ t.ring = s.ring ∧
          t.dev.regs = s.dev.regs ∧ (t.dev.chan k).i1 = i.1 ∧ (t.dev.chan k).i2 = i.2.1 ∧ (t.dev.chan k).i3 = i.2.2 ∧
          (t.dev.chan k).p3 = i.2.2 ∧ (t.dev.chan k).p1 = c1 ∧ (t.dev.chan k).p2 = c2 ∧
          (t.dev.chan k).line = line.take 1023 ∧ (t.dev.chan k).hist = satI 24 (cicScale (s.dev.chLg k) (c2 - x.p2).toInt) :: x.hist.take 383 ∧
          (t.dev.chan k).out = x.out ∧ (t.dev.chan k).st = x.st ∧ (∀ j, j ≠ k → t.dev.chan j = s.dev.chan j))) ∧
     (s.dev.pastC0 k c = true → ((c : Int) - k) % (s.dev.outClks k : Int) = 0 → x.pend = none →
       (let y := fun (r : Nat) => satI 24 (firSum (s.dev.respOf (s.dev.chAux k) r).coef x.hist)
        let kept := fun (v : Int) (done : Option Nat) => if s.dev.settleN k ≤ x.nOut then
            x.wait ++ [({ val := v, stamp := s.dev.outStamp k c ts pbar, done := done } : POut)] else x.wait
        (x.fade = none →
          ∃ t, exec (.firOutput k c ts pbar) s = .next t ∧ t.pending = s.pending ∧ t.clk = s.clk ∧ t.ring = s.ring ∧
            t.dev.regs = s.dev.regs ∧ (t.dev.chan k).wait = kept (y x.now) none ∧ (t.dev.chan k).nOut = x.nOut + 1 ∧
            (t.dev.chan k).out = x.out ∧ (∀ j, j ≠ k → t.dev.chan j = s.dev.chan j)) ∧
        (∀ f, x.fade = some f → f.n < f.len →
          ∃ t, exec (.firOutput k c ts pbar) s = .next t ∧ t.pending = s.pending ∧ t.clk = s.clk ∧ t.ring = s.ring ∧
            t.dev.regs = s.dev.regs ∧ (t.dev.chan k).fade = some { f with n := f.n + 1 } ∧
            (t.dev.chan k).wait = kept (y f.frm + rnd ((((f.n + 1 : Nat) : Int) * (y f.dst - y f.frm) : Int) / (f.len : Rat)))
              (if f.n + 1 = f.len then some f.slot else none) ∧
            (t.dev.chan k).nOut = x.nOut + 1 ∧ (t.dev.chan k).out = x.out ∧ (∀ j, j ≠ k → t.dev.chan j = s.dev.chan j)))) ∧
     (∀ o r, x.wait = o :: r →
       ∃ t, exec (.outputPublish k) s = .next t ∧ t.pending = s.pending ∧ t.clk = s.clk ∧ t.ring = s.ring ∧
         t.dev.regs = s.dev.regs ∧ (t.dev.chan k).out = o ∧ (t.dev.chan k).valid = true ∧ (t.dev.chan k).st = .running ∧
         (t.dev.chan k).wait = r ∧ (t.dev.chan k).nPub = x.nPub + 1 ∧ (∀ j, j ≠ k → t.dev.chan j = s.dev.chan j)))

/-- The FIR output (R274): the sum of the products of a response's coefficients with the newest CIC outputs, exact in magnitude
at most 384 × 2^46, stored to 24 bits by adding 2^22, shifting right by 23 and saturating; a saturation, and nothing else,
counts in SAT and raises PRISM's event 4. -/
def Obligations.FirOutputIsTheSaturatedSum : Prop :=
  (∀ (h d : List Int), h.length ≤ 384 → (∀ x, x ∈ h → -8388608 ≤ x ∧ x ≤ 8388607) → (∀ x, x ∈ d → -8388608 ≤ x ∧ x ≤ 8388607) →
    (let acc := (List.zipWith (fun a b => a * b) h d).foldl (fun a b => a + b) 0
     (∀ p, p ∈ List.zipWith (fun a b => a * b) h d → -(2 ^ 46 : Int) ≤ p ∧ p ≤ 2 ^ 46) ∧
       -(384 * 2 ^ 46 : Int) ≤ acc ∧ acc ≤ 384 * 2 ^ 46 ∧ firSum h d = (acc + 2 ^ 22) / 2 ^ 23)) ∧
  (∀ (d : Dev) (k r : Nat),
    (let v := firSum (d.respOf (d.chAux k) r).coef (d.chan k).hist
     let y := if v < -8388608 then -8388608 else if 8388607 < v then 8388607 else v
     (d.firOne k r).1 = y ∧ (y = v → (d.firOne k r).2 = d) ∧
       (y ≠ v → ((d.firOne k r).2.chan k).sat = sat1 8 (d.chan k).sat ∧ ((d.firOne k r).2.chan k).hist = (d.chan k).hist ∧
         (∀ j, j ≠ k → (d.firOne k r).2.chan j = d.chan j) ∧
         (d.pageOn 0x28 = true → bit ((d.firOne k r).2.pg 0x28).raw 4 = true))))

/-- The phasor unit and the wavefront path (R294, R299, R300, R302 to R304). A report instant not yet reported joins the queue
with its frame, the oldest leaving a queue of 16, which is counted. A wavefront output filters every channel; the first
three after a start are discarded, and later ones join the history the detectors compare. -/
def Obligations.PhasorFramesAndWaveOutputsFollow : Prop :=
  ∀ (sec k sr c ts : Nat) (pbar : EdgeMean) (bs : List Nat) (s : State),
    (let tai := s.dev.repAt sec k
     let full := 16 ≤ s.dev.phasor.queue.length
     s.dev.phasorOn = true → k < s.dev.phFs → (∀ l, s.dev.phasor.lastTai = some l → l < tai) →
       repInstant tai s.dev.locus.offset none s.dev.phasor.steps = some sr →
       ∃ t, exec (.phasorFrame sec k) s = .next t ∧ t.pending = s.pending ∧ t.clk = s.clk ∧ t.ring = s.ring ∧
         t.dev.regs = s.dev.regs ∧ t.dev.hull = s.dev.hull ∧ t.dev.prism = s.dev.prism ∧ t.dev.phasor.lastTai = some tai ∧
         t.dev.phasor.newest = some (s.dev.phFrame tai sr) ∧
         t.dev.phasor.queue = (if full then s.dev.phasor.queue.tail else s.dev.phasor.queue) ++ [s.dev.phFrame tai sr] ∧
         t.dev.phasor.drop = (if full then sat1 32 s.dev.phasor.drop else s.dev.phasor.drop) ∧
         (s.dev.pageOn 0x2A = true → bit (t.dev.pg 0x2A).raw 0 = true)) ∧
    (s.dev.domOn 6 = true → s.dev.wave.running = true → c % 4 = 0 → bs.length = 4 →
      ∃ t, exec (.waveOutput c ts pbar bs) s = .next t ∧ t.pending = s.pending ∧ t.clk = s.clk ∧ t.ring = s.ring ∧
        t.dev.regs = s.dev.regs ∧ t.dev.hull = s.dev.hull ∧
        t.dev.prism = (if s.dev.clkMode = 2 then { s.dev.prism with pbar := pbar } else s.dev.prism) ∧
        t.dev.wave.skip = s.dev.wave.skip - 1 ∧
        (∀ x, x < 16 →
          (let w := Dev.waveCic (tget {} s.dev.wave.chan x) (bs.map (fun b => bit b x))
           let u := tget {} t.dev.wave.chan x
           u.i1 = w.1.i1 ∧ u.i2 = w.1.i2 ∧ u.i3 = w.1.i3 ∧ u.p3 = w.1.p3 ∧ u.p1 = w.1.p1 ∧ u.p2 = w.1.p2 ∧
           u.hist = if 0 < s.dev.wave.skip then w.1.hist else w.2 :: w.1.hist.take 16)))

/-- Triggers and records (R309, R311, R312, R319). An edge on SD15 of the polarity of TIN_CFG.POL, with the trigger input on, is a
trigger of source EXT: the rings take it, and the trigger output pulses where EXT is selected and no pulse is out; an edge of the
other polarity is none; the pulse ends by its own event. A record that
closes is locked by the readouts submitted before; where a slot is free it is kept, newest first, and the next live slot is the lowest free one; where none is free the
oldest unlocked record gives way and is counted, and where all are locked the record is lost. -/
def Obligations.TriggersAndRecordsAct : Prop :=
  ∀ (edge i : Nat) (o : Rec) (s : State),
    (s.dev.domOn 7 = true → s.dev.flag 0x2C 0x2C 0 = true →
      exec (.extTrigger ⟨s.dev.flag 0x2C 0x34 0, edge⟩) s = .next s ∧
      exec (.extTrigger ⟨!s.dev.flag 0x2C 0x34 0, edge⟩) s = .next (s.withDev (s.dev.trigger s.now 1 255 (edge / 16) (edge % 16))) ∧
      (s.dev.flag 0x2C 0x2C 1 = true → s.dev.flag 0x2C 0x30 1 = true → s.dev.cap.pulse = none →
        (s.dev.trigger s.now 1 255 (edge / 16) (edge % 16)).cap.pulse = some (s.now + 100 * s.dev.fld 0x2C 0x30 31 16))) ∧
    (s.dev.flag 0x2C 0x2C 0 = false → ∀ rising, exec (.extTrigger ⟨rising, edge⟩) s = .next s) ∧
    exec .triggerPulseEnd s = .next (s.withDev (s.dev.modCap (fun c => { c with pulse := none }))) ∧
    ((i = 0 ∨ i = 1 ∨ i = 3) → (s.dev.ringOf i).opened = some o →
      (let r := s.dev.ringOf i
       let kept : Rec := { o with trunc := i != 3 && decide (0 < o.left), reads := s.dev.readsOf i o.id }
       let used := if r.used.contains r.slot then r.used else r.used ++ [r.slot]
       ∃ t, exec (.recordClose i) s = .next t ∧ t.pending = s.pending ∧ t.clk = s.clk ∧ t.ring = s.ring ∧
         t.dev.regs = s.dev.regs ∧ (t.dev.ringOf i).opened = none ∧ (t.dev.ringOf i).newest = o.id ∧
         (t.dev.ringOf i).live = [] ∧ (t.dev.ringOf i).since = s.now ∧ (s.dev.pageOn 0x2C = true → bit (t.dev.pg 0x2C).raw 1 = true) ∧
         (∀ n, n < r.slots → used.contains n = false → (∀ m, m < n → used.contains m = true) →
           (t.dev.ringOf i).recs = kept :: r.recs ∧ (t.dev.ringOf i).slot = n ∧ (t.dev.ringOf i).lost = r.lost) ∧
         ((∀ n, n < r.slots → used.contains n = true) → (∀ v, v ∈ r.recs → Dev.recLocked v = true) →
           (t.dev.ringOf i).recs = r.recs ∧ (t.dev.ringOf i).lost = satN 16 r.lost (o.ntrig + 1)) ∧
         (∀ v older newer, (∀ n, n < r.slots → used.contains n = true) → r.recs = newer ++ v :: older →
           (∀ w, w ∈ older → Dev.recLocked w = true) → Dev.recLocked v = false →
           (t.dev.ringOf i).recs = kept :: r.recs.filter (fun w => w.id != v.id) ∧ (t.dev.ringOf i).slot = v.slot ∧
           (t.dev.ringOf i).nOver = sat1 16 r.nOver)))

/-- The stream receivers and transmitters (R322, R325, R327, R328, R332, R333, R335, R340 to R343). A frame in SEARCH only times the
preambles; one that follows on time in a block joins the block's samples, a subframe with V or odd parity holding the last
value and counted; a preamble B with a known rate leads to LOCKING, the sixteenth stable block to LOCKED; a loss
leads to SEARCH; a closing receiver whose weights are 0 enters OFF; a block that leaves at its instant carries what its source
holds, and one at any other is none (log entry 6); the block that the model shows is its frame 0 (log entry 61). -/
def Obligations.StreamEventsAct : Prop :=
  ∀ (n edge l hi lo fine : Nat) (w1 w2 : RxSub) (v1 v2 p1 p2 : Bool) (s : State), n < 8 → rxStamp hi lo fine = edge →
    (let p := s.dev.port! n
     let a := rxBits w1 v1 p1
     let b := rxBits w2 v2 p2
     (s.dev.rxOn n = true →
       (p.st = .search →
         ∃ t, exec (.rxFrame n edge w1 w2 v1 v2 p1 p2) s = .next t ∧ t.pending = s.pending ∧ t.clk = s.clk ∧ t.ring = s.ring ∧
           t.dev.regs = s.dev.regs ∧ (t.dev.port! n).lastFrame = some edge ∧ (t.dev.port! n).st = .search ∧
           (t.dev.port! n).frames = p.frames ∧ (∀ x, x ≠ n → t.dev.port! x = s.dev.port! x)) ∧
       (p.st ≠ .search → p.st ≠ .off → p.blocks ≠ [] → p.nFrames < 192 → p.lastFrame = some l → l < edge →
         p.fhat * 98 / 100 ≤ ((edge - l : Nat) : Rat) → ((edge - l : Nat) : Rat) ≤ p.fhat * 102 / 100 →
         ∃ t q r, exec (.rxFrame n edge w1 w2 v1 v2 p1 p2) s = .next t ∧ t.pending = s.pending ∧ t.clk = s.clk ∧
           t.ring = s.ring ∧ t.dev.regs = s.dev.regs ∧ (t.dev.port! n).st = p.st ∧
           (t.dev.port! n).frames = ((p.tb, p.nFrames, q, r) :: p.frames).take 2112 ∧
           (subMissing a = false → q = sx 24 (a % 2 ^ 24)) ∧ (subMissing b = false → r = sx 24 (b % 2 ^ 24)) ∧
           (∀ f, p.frames.head? = some f → (subMissing a = true → q = f.2.2.1) ∧ (subMissing b = true → r = f.2.2.2)) ∧
           (t.dev.port! n).par = satN 16 p.par (b2n (subMissing a) + b2n (subMissing b)) ∧
           (t.dev.port! n).nFrames = p.nFrames + 1 ∧ (∀ x, x ≠ n → t.dev.port! x = s.dev.port! x)) ∧
       (p.st = .search → p.ivl ≠ 0 → s.dev.rxRate n p.ivl ≠ 0 →
         ∃ t, exec (.rxBlock n hi lo fine) s = .next t ∧ t.pending = s.pending ∧ t.clk = s.clk ∧ t.ring = s.ring ∧
           t.dev.regs = s.dev.regs ∧ (t.dev.port! n).st = .locking ∧ (t.dev.port! n).rate = s.dev.rxRate n p.ivl ∧
           (t.dev.port! n).blocks = [(edge, 0)] ∧ (t.dev.port! n).ts = edge ∧ (t.dev.port! n).tb = edge ∧
           (t.dev.port! n).nFrames = 0) ∧
       (let e := (((edge, p.total + 192) :: p.blocks).take 17).getLast?.getD (0, 0)
        let f : Rat := ((edge - e.1 : Nat) : Rat) / (p.total + 192 - e.2 : Nat)
        p.st = .locking → p.blocks ≠ [] → p.nFrames = 192 → p.stable = 15 → p.stableOk = true → f ≠ 0 →
        fNom p.rate - f ≤ f / 5000 → f - fNom p.rate ≤ f / 5000 →
        ∃ t, exec (.rxBlock n hi lo fine) s = .next t ∧ t.pending = s.pending ∧ t.clk = s.clk ∧ t.ring = s.ring ∧
          t.dev.regs = s.dev.regs ∧ (t.dev.port! n).st = .locked ∧ (t.dev.port! n).fhat = f ∧
          (t.dev.port! n).ts = edge ∧ (t.dev.port! n).tb = edge ∧ (t.dev.port! n).total = p.total + 192 ∧
          (t.dev.port! n).nFrames = 0) ∧
       (∃ t, exec (.rxLoss n) s = .next t ∧ t.pending = s.pending ∧ t.clk = s.clk ∧ t.ring = s.ring ∧
         t.dev.regs = s.dev.regs ∧ (t.dev.port! n).st = .search ∧ (t.dev.port! n).rate = 0 ∧
         (p.st ≠ .search → (t.dev.port! n).lost = true)) ∧
       (p.closing = true → s.dev.pwr.fadeOff = false →
         (p.s2.w = 0 → ∃ t, exec (.muteFadeEnd n 1) s = .next t ∧ t.dev.regs = s.dev.regs ∧ (t.dev.port! n).st = .off) ∧
         (p.s1.w = 0 → ∃ t, exec (.muteFadeEnd n 2) s = .next t ∧ t.dev.regs = s.dev.regs ∧ (t.dev.port! n).st = .off))) ∧
     (s.dev.txMay n edge = true →
       ∃ t, exec (.txBlock n edge) s = .next t ∧ t.pending = s.pending ∧ t.clk = s.clk ∧ t.ring = s.ring ∧
         t.dev.regs = s.dev.regs ∧ (t.dev.port! n).txRun = true ∧ (t.dev.port! n).txTs = edge ∧
         (t.dev.port! n).txOut = s.dev.txContent n ∧ (p.txResync = true → (t.dev.port! n).txResync = false)) ∧
     (s.dev.txMay n edge = false → exec (.txBlock n edge) s = .next s))

/-- The Lattice engine's events (R184, R186 to R188). A due element's input that has not latched latches once, with its value and
no other input; a stale one is counted. An instance whose inputs have all latched writes the results of its routine to its
shadow copies alone: its committed outputs and states stand until the commit. A commit carries its period's index on. -/
def Obligations.InputsLatchAndInstancesRun : Prop :=
  ∀ (c e i m : Nat) (v : Int) (stale : Bool) (mis : List Mismatch) (s : State), s.dev.latOn = true →
    (1 ≤ c → c ≤ 63 → e < s.dev.nElem c → s.dev.dueAt c (s.dev.runM s.now) = true → (s.dev.elem c e).done = false →
      (i < 8 → tget none (s.dev.elem c e).inp i = none → bits (s.dev.selOf c i) 15 12 ≠ 0 →
        s.dev.latchVal c e i (s.dev.runM s.now) = some (v, stale) →
        ∃ t, exec (.inputLatch c e i) s = .next t ∧ t.pending = s.pending ∧ t.clk = s.clk ∧ t.ring = s.ring ∧
          t.dev.regs = s.dev.regs ∧ t.dev.hull = s.dev.hull ∧
          (∀ j, tget none (t.dev.elem c e).inp j = if j = i then some v else tget none (s.dev.elem c e).inp j) ∧
          (t.dev.elem c e).out = (s.dev.elem c e).out ∧ (t.dev.elem c e).st = (s.dev.elem c e).st ∧
          (t.dev.cx c).stale = (if stale then sat1 8 (s.dev.cx c).stale else (s.dev.cx c).stale) ∧
          (∀ f, f ≠ e → t.dev.elem c f = s.dev.elem c f) ∧ (∀ x, x ≠ c → t.dev.cx x = s.dev.cx x)) ∧
      (s.dev.latched c e = true →
        (let r := s.dev.runElem c e
         ∃ t, exec (.instanceEnd c e) s = .next t ∧ t.pending = s.pending ∧ t.clk = s.clk ∧ t.ring = s.ring ∧
          t.dev.regs = s.dev.regs ∧ t.dev.hull = s.dev.hull ∧
          t.dev.elem c e = { s.dev.elem c e with done := true, sout := r.1.out, sst := r.1.st, sclamp := r.1.clamp } ∧
          (t.dev.cx c).ssat = ((s.dev.cx c).ssat || r.2) ∧
          (∀ f, f ≠ e → t.dev.elem c f = s.dev.elem c f) ∧ (∀ x, x ≠ c → t.dev.cx x = s.dev.cx x)))) ∧
    (∃ t, exec (.commit m mis) s = .next t ∧ t.pending = s.pending ∧ t.clk = s.clk ∧ t.ring = s.ring ∧
      t.dev.lat.pidx = m ∧ t.dev.lat.ran = true)

/-- The commit of one context (R188, R190, R210): one that is not due stays; one whose instances have all ended takes their
shadow outputs and states as committed; one that has not counts an overrun with its outputs standing, and the third in a row
is a FAULT. A pending request that is allowed leads to its state; another is discarded and counted, in VIOL_COUNT alone by the
model's reading (log entry 15). -/
def Obligations.ContextCommitTakesOrMisses : Prop :=
  ∀ (d : Dev) (now m c : Nat), 1 ≤ c → c ≤ 63 →
    (let t := Dev.commitRun now m d c
     let all := (List.range (d.nElem c)).all (fun e => (d.elem c e).done)
     (d.dueAt c m = false → t = d) ∧
     (d.dueAt c m = true → all = true → (t.cx c).ovr = 0 ∧ (t.cx c).st = (d.cx c).st ∧ t.regs = d.regs ∧ t.hull = d.hull ∧
       (∀ e, e < d.nElem c → (t.elem c e).out = (d.elem c e).sout ∧ (t.elem c e).st = (d.elem c e).sst ∧
         (t.elem c e).done = false ∧ (t.elem c e).inp = []) ∧ (∀ x, x ≠ c → t.cx x = d.cx x)) ∧
     (d.dueAt c m = true → all = false → t.regs = d.regs ∧ t.hull = d.hull ∧
       (∀ e, (t.elem c e).out = (d.elem c e).out ∧ (t.elem c e).st = (d.elem c e).st ∧ (t.elem c e).done = false) ∧
       (t.cx c).ovr = min 3 ((d.cx c).ovr + 1) ∧ (t.cx c).ovrTotal = sat1 16 (d.cx c).ovrTotal ∧
       (t.cx c).st = (if (d.cx c).ovr < 2 then (d.cx c).st else .fault) ∧ (∀ x, x ≠ c → t.cx x = d.cx x))) ∧
    (let t := Dev.commitReq d c
     let r := (d.cx c).req
     (r = 0 → t = d) ∧
     (r ≠ 0 → (d.updCtx c (fun x => { x with req := 0 })).reqAllowed c r (d.cx c).en = false →
       t = (d.updCtx c (fun x => { x with req := 0 })).discardCount) ∧
     (r ≠ 0 → (d.updCtx c (fun x => { x with req := 0 })).reqAllowed c r (d.cx c).en = true →
       (t.cx c).st = (if r = 3 then .idle else if r = 1 then .opened else .closing) ∧ (t.cx c).req = 0 ∧
       (t.cx c).k = (d.cx c).k ∧ t.viol = d.viol ∧ t.regs = d.regs ∧ (∀ x, x ≠ c → t.cx x = d.cx x)))

/-- Vertex's block (R148, R149, R392): at the latch every cell of an enabled string takes its latest V_dc and has its transitions
counted afresh, and the string's block sums start again; a publication outside RUN, or of a block whose latch was not in RUN, leaves
every cell without share and trim, OUT in an enabled string and ABSENT in none. Another works on the enabled strings in order.
Units of Chord (R136, R137, R144): modulation begins at the start peak, rest at the rest peak; a unit that retreated restarts
with its carries cleared. No other unit, no link and no register changes. -/
def Obligations.VertexPublishesAndUnitsStart : Prop :=
  (∀ (n : Nat) (s : State), 2 ≤ n → s.dev.domOn 3 = true →
     (∃ t, exec (.vertexLatch n) s = .next t ∧ t.pending = s.pending ∧ t.clk = s.clk ∧ t.ring = s.ring ∧
         t.dev.regs = s.dev.regs ∧ t.dev.link = s.dev.link ∧ t.dev.hull = s.dev.hull ∧ t.dev.lat = s.dev.lat ∧
         t.dev.vLat = (s.dev.stage == .run) ∧
         (∀ str, str ∈ s.dev.strings → (t.dev.vs str).n = 0 ∧ (t.dev.vs str).sumP = 0 ∧ (t.dev.vs str).vBlk = 0 ∧
           (∀ k, k ∈ s.dev.strCells str → (t.dev.ch k).nTr = 0 ∧ (t.dev.vc k).cause = false ∧
             (t.dev.vc k).inp.v = ((s.dev.lk k).samp.find? (fun q => q.1 == 0)).map (fun q => q.2.1) ∧
             (t.dev.vc k).g = (s.dev.vc k).g))) ∧
     ((s.dev.stage ≠ .run ∨ s.dev.vLat = false) →
       ∃ t, exec (.vertexPublish n) s = .next t ∧ t.pending = s.pending ∧ t.clk = s.clk ∧ t.ring = s.ring ∧
         t.dev.regs = s.dev.regs ∧ t.dev.link = s.dev.link ∧ t.dev.hull = s.dev.hull ∧ t.dev.lat = s.dev.lat ∧
         t.dev.vBlk = n ∧ t.dev.vRun = false ∧
         (∀ k, k < 48 → (t.dev.vc k).g = 0 ∧ (t.dev.vc k).ph = 0 ∧ (t.dev.vc k).health = .good ∧
           (t.dev.vc k).role = if (s.dev.strOf k).isSome then .out else .absent)) ∧
     (s.dev.stage = .run → s.dev.vLat = true →
       (let a := ({ s.dev with vBlk := n, vRun := true } : Dev).each s.dev.strings (fun d x => (Dev.publishStr s.now (blockAt n) d x).rephase x)
        let b := if a.diag.pt.running && (a.vc a.diag.pt.cell).role != .sharing then a.ptAbort s.now else a
        exec (.vertexPublish n) s = .next (s.withDev (b.each ((List.range 48).filter (fun k => (b.strOf k).isNone)) Dev.idleCell))))) ∧
  (∀ (u : Nat) (s : State),
     ((s.dev.ch u).mode = .starting → (s.dev.ch u).startPk ≠ none →
       exec (.cellStart u) s = .next (s.withDev (s.dev.updChord u (fun c => { c with mode := .modulating })))) ∧
     ((s.dev.ch u).mode = .modulating → (s.dev.ch u).restPk ≠ none →
       exec (.restEntry u) s = .next (s.withDev (s.dev.updChord u (fun c => { c with mode := .resting })))) ∧
     ((s.dev.ch u).mode = .retreat → s.dev.unitOn u = true →
       ∃ t, exec (.retreatReload u) s = .next t ∧ t.pending = s.pending ∧ t.clk = s.clk ∧ t.ring = s.ring ∧
         t.dev.regs = s.dev.regs ∧ t.dev.link = s.dev.link ∧ t.dev.hull = s.dev.hull ∧
         (t.dev.ch u).mode = .starting ∧ (t.dev.ch u).legA = {} ∧ (t.dev.ch u).legB = {} ∧ (t.dev.ch u).startPk = none ∧
         (t.dev.ch u).nTr = (s.dev.ch u).nTr ∧ (∀ x, x ≠ u → t.dev.ch x = s.dev.ch x)))

/-- The shares of a string (R157): where the targets are not negative and sum to the string's number of cells, the shares sum to
exactly that number of 2,048ths, each within one unit of its target. -/
def Obligations.SharesSumToTheirTotal : Prop :=
  ∀ (total : Nat) (l : List (VWork × Rat)),
    (l.map (fun p => p.1.k)).Nodup → (∀ p, p ∈ l → 0 ≤ p.2) → sumR (l.map (fun p => p.2)) = (total : Rat) →
    sumN ((quantise total l).map (fun y => y.g)) = total * 2048 ∧
      (∀ y, y ∈ quantise total l → ∃ p, p ∈ l ∧ p.1.k = y.k ∧ p.2 * 2048 - 1 < (y.g : Rat) ∧ (y.g : Rat) ≤ p.2 * 2048 + 1)
end

