-- ==== Sys2Proof/Laws/State.lean ====
section
/-! SUPPORT. What each update of the device changes and leaves: one lemma per field and update, so that no proof
unfolds a record update. -/

namespace Sys2Proof.Machine

theorem onDev_eq (s : State) (f : Nat → Dev → Dev) : onDev s f = .next { s with dev := f s.now s.dev } := rfl
theorem onDev_next {s t : State} {f : Nat → Dev → Dev} (h : onDev s f = .next t) :
    t.pending = s.pending ∧ t.clk = s.clk ∧ t.ring = s.ring ∧ t.dev = f s.now s.dev := by
  cases h; exact ⟨rfl, rfl, rfl, rfl⟩

namespace Dev

@[simp] theorem modHull_regs (d : Dev) (f : Hull → Hull) : (d.modHull f).regs = d.regs := rfl
@[simp] theorem modHull_pages (d : Dev) (f : Hull → Hull) : (d.modHull f).pages = d.pages := rfl
@[simp] theorem modHull_viol (d : Dev) (f : Hull → Hull) : (d.modHull f).viol = d.viol := rfl
@[simp] theorem modHull_bus (d : Dev) (f : Hull → Hull) : (d.modHull f).bus = d.bus := rfl
@[simp] theorem modHull_boot (d : Dev) (f : Hull → Hull) : (d.modHull f).boot = d.boot := rfl
@[simp] theorem modHull_pwr (d : Dev) (f : Hull → Hull) : (d.modHull f).pwr = d.pwr := rfl
@[simp] theorem modHull_hull (d : Dev) (f : Hull → Hull) : (d.modHull f).hull = f d.hull := rfl
@[simp] theorem modHull_locus (d : Dev) (f : Hull → Hull) : (d.modHull f).locus = d.locus := rfl
@[simp] theorem modHull_therm (d : Dev) (f : Hull → Hull) : (d.modHull f).therm = d.therm := rfl
@[simp] theorem modHull_link (d : Dev) (f : Hull → Hull) : (d.modHull f).link = d.link := rfl
@[simp] theorem modHull_lostMap (d : Dev) (f : Hull → Hull) : (d.modHull f).lostMap = d.lostMap := rfl
@[simp] theorem modHull_chord (d : Dev) (f : Hull → Hull) : (d.modHull f).chord = d.chord := rfl
@[simp] theorem modHull_cmpStat (d : Dev) (f : Hull → Hull) : (d.modHull f).cmpStat = d.cmpStat := rfl
@[simp] theorem modHull_cmpDom (d : Dev) (f : Hull → Hull) : (d.modHull f).cmpDom = d.cmpDom := rfl
@[simp] theorem modHull_vcell (d : Dev) (f : Hull → Hull) : (d.modHull f).vcell = d.vcell := rfl
@[simp] theorem modHull_vstr (d : Dev) (f : Hull → Hull) : (d.modHull f).vstr = d.vstr := rfl
@[simp] theorem modHull_vRun (d : Dev) (f : Hull → Hull) : (d.modHull f).vRun = d.vRun := rfl
@[simp] theorem modHull_vBlk (d : Dev) (f : Hull → Hull) : (d.modHull f).vBlk = d.vBlk := rfl
@[simp] theorem modHull_vLat (d : Dev) (f : Hull → Hull) : (d.modHull f).vLat = d.vLat := rfl
@[simp] theorem modHull_lat (d : Dev) (f : Hull → Hull) : (d.modHull f).lat = d.lat := rfl
@[simp] theorem modHull_model (d : Dev) (f : Hull → Hull) : (d.modHull f).model = d.model := rfl
@[simp] theorem modHull_diag (d : Dev) (f : Hull → Hull) : (d.modHull f).diag = d.diag := rfl
@[simp] theorem modHull_prism (d : Dev) (f : Hull → Hull) : (d.modHull f).prism = d.prism := rfl
@[simp] theorem modHull_phasor (d : Dev) (f : Hull → Hull) : (d.modHull f).phasor = d.phasor := rfl
@[simp] theorem modHull_wave (d : Dev) (f : Hull → Hull) : (d.modHull f).wave = d.wave := rfl
@[simp] theorem modHull_cap (d : Dev) (f : Hull → Hull) : (d.modHull f).cap = d.cap := rfl
@[simp] theorem modHull_port (d : Dev) (f : Hull → Hull) : (d.modHull f).port = d.port := rfl
@[simp] theorem modHull_hrWr (d : Dev) (f : Hull → Hull) : (d.modHull f).hrWr = d.hrWr := rfl
@[simp] theorem modHull_hrLost (d : Dev) (f : Hull → Hull) : (d.modHull f).hrLost = d.hrLost := rfl
@[simp] theorem modHull_nvm (d : Dev) (f : Hull → Hull) : (d.modHull f).nvm = d.nvm := rfl
@[simp] theorem modHull_pre (d : Dev) (f : Hull → Hull) : (d.modHull f).pre = d.pre := rfl
@[simp] theorem modHull_free (d : Dev) (f : Hull → Hull) : (d.modHull f).free = d.free := rfl
@[simp] theorem modBoot_regs (d : Dev) (f : Boot → Boot) : (d.modBoot f).regs = d.regs := rfl
@[simp] theorem modBoot_pages (d : Dev) (f : Boot → Boot) : (d.modBoot f).pages = d.pages := rfl
@[simp] theorem modBoot_viol (d : Dev) (f : Boot → Boot) : (d.modBoot f).viol = d.viol := rfl
@[simp] theorem modBoot_bus (d : Dev) (f : Boot → Boot) : (d.modBoot f).bus = d.bus := rfl
@[simp] theorem modBoot_boot (d : Dev) (f : Boot → Boot) : (d.modBoot f).boot = f d.boot := rfl
@[simp] theorem modBoot_pwr (d : Dev) (f : Boot → Boot) : (d.modBoot f).pwr = d.pwr := rfl
@[simp] theorem modBoot_hull (d : Dev) (f : Boot → Boot) : (d.modBoot f).hull = d.hull := rfl
@[simp] theorem modBoot_locus (d : Dev) (f : Boot → Boot) : (d.modBoot f).locus = d.locus := rfl
@[simp] theorem modBoot_therm (d : Dev) (f : Boot → Boot) : (d.modBoot f).therm = d.therm := rfl
@[simp] theorem modBoot_link (d : Dev) (f : Boot → Boot) : (d.modBoot f).link = d.link := rfl
@[simp] theorem modBoot_lostMap (d : Dev) (f : Boot → Boot) : (d.modBoot f).lostMap = d.lostMap := rfl
@[simp] theorem modBoot_chord (d : Dev) (f : Boot → Boot) : (d.modBoot f).chord = d.chord := rfl
@[simp] theorem modBoot_cmpStat (d : Dev) (f : Boot → Boot) : (d.modBoot f).cmpStat = d.cmpStat := rfl
@[simp] theorem modBoot_cmpDom (d : Dev) (f : Boot → Boot) : (d.modBoot f).cmpDom = d.cmpDom := rfl
@[simp] theorem modBoot_vcell (d : Dev) (f : Boot → Boot) : (d.modBoot f).vcell = d.vcell := rfl
@[simp] theorem modBoot_vstr (d : Dev) (f : Boot → Boot) : (d.modBoot f).vstr = d.vstr := rfl
@[simp] theorem modBoot_vRun (d : Dev) (f : Boot → Boot) : (d.modBoot f).vRun = d.vRun := rfl
@[simp] theorem modBoot_vBlk (d : Dev) (f : Boot → Boot) : (d.modBoot f).vBlk = d.vBlk := rfl
@[simp] theorem modBoot_vLat (d : Dev) (f : Boot → Boot) : (d.modBoot f).vLat = d.vLat := rfl
@[simp] theorem modBoot_lat (d : Dev) (f : Boot → Boot) : (d.modBoot f).lat = d.lat := rfl
@[simp] theorem modBoot_model (d : Dev) (f : Boot → Boot) : (d.modBoot f).model = d.model := rfl
@[simp] theorem modBoot_diag (d : Dev) (f : Boot → Boot) : (d.modBoot f).diag = d.diag := rfl
@[simp] theorem modBoot_prism (d : Dev) (f : Boot → Boot) : (d.modBoot f).prism = d.prism := rfl
@[simp] theorem modBoot_phasor (d : Dev) (f : Boot → Boot) : (d.modBoot f).phasor = d.phasor := rfl
@[simp] theorem modBoot_wave (d : Dev) (f : Boot → Boot) : (d.modBoot f).wave = d.wave := rfl
@[simp] theorem modBoot_cap (d : Dev) (f : Boot → Boot) : (d.modBoot f).cap = d.cap := rfl
@[simp] theorem modBoot_port (d : Dev) (f : Boot → Boot) : (d.modBoot f).port = d.port := rfl
@[simp] theorem modBoot_hrWr (d : Dev) (f : Boot → Boot) : (d.modBoot f).hrWr = d.hrWr := rfl
@[simp] theorem modBoot_hrLost (d : Dev) (f : Boot → Boot) : (d.modBoot f).hrLost = d.hrLost := rfl
@[simp] theorem modBoot_nvm (d : Dev) (f : Boot → Boot) : (d.modBoot f).nvm = d.nvm := rfl
@[simp] theorem modBoot_pre (d : Dev) (f : Boot → Boot) : (d.modBoot f).pre = d.pre := rfl
@[simp] theorem modBoot_free (d : Dev) (f : Boot → Boot) : (d.modBoot f).free = d.free := rfl
@[simp] theorem modBus_regs (d : Dev) (f : Bus → Bus) : (d.modBus f).regs = d.regs := rfl
@[simp] theorem modBus_pages (d : Dev) (f : Bus → Bus) : (d.modBus f).pages = d.pages := rfl
@[simp] theorem modBus_viol (d : Dev) (f : Bus → Bus) : (d.modBus f).viol = d.viol := rfl
@[simp] theorem modBus_bus (d : Dev) (f : Bus → Bus) : (d.modBus f).bus = f d.bus := rfl
@[simp] theorem modBus_boot (d : Dev) (f : Bus → Bus) : (d.modBus f).boot = d.boot := rfl
@[simp] theorem modBus_pwr (d : Dev) (f : Bus → Bus) : (d.modBus f).pwr = d.pwr := rfl
@[simp] theorem modBus_hull (d : Dev) (f : Bus → Bus) : (d.modBus f).hull = d.hull := rfl
@[simp] theorem modBus_locus (d : Dev) (f : Bus → Bus) : (d.modBus f).locus = d.locus := rfl
@[simp] theorem modBus_therm (d : Dev) (f : Bus → Bus) : (d.modBus f).therm = d.therm := rfl
@[simp] theorem modBus_link (d : Dev) (f : Bus → Bus) : (d.modBus f).link = d.link := rfl
@[simp] theorem modBus_lostMap (d : Dev) (f : Bus → Bus) : (d.modBus f).lostMap = d.lostMap := rfl
@[simp] theorem modBus_chord (d : Dev) (f : Bus → Bus) : (d.modBus f).chord = d.chord := rfl
@[simp] theorem modBus_cmpStat (d : Dev) (f : Bus → Bus) : (d.modBus f).cmpStat = d.cmpStat := rfl
@[simp] theorem modBus_cmpDom (d : Dev) (f : Bus → Bus) : (d.modBus f).cmpDom = d.cmpDom := rfl
@[simp] theorem modBus_vcell (d : Dev) (f : Bus → Bus) : (d.modBus f).vcell = d.vcell := rfl
@[simp] theorem modBus_vstr (d : Dev) (f : Bus → Bus) : (d.modBus f).vstr = d.vstr := rfl
@[simp] theorem modBus_vRun (d : Dev) (f : Bus → Bus) : (d.modBus f).vRun = d.vRun := rfl
@[simp] theorem modBus_vBlk (d : Dev) (f : Bus → Bus) : (d.modBus f).vBlk = d.vBlk := rfl
@[simp] theorem modBus_vLat (d : Dev) (f : Bus → Bus) : (d.modBus f).vLat = d.vLat := rfl
@[simp] theorem modBus_lat (d : Dev) (f : Bus → Bus) : (d.modBus f).lat = d.lat := rfl
@[simp] theorem modBus_model (d : Dev) (f : Bus → Bus) : (d.modBus f).model = d.model := rfl
@[simp] theorem modBus_diag (d : Dev) (f : Bus → Bus) : (d.modBus f).diag = d.diag := rfl
@[simp] theorem modBus_prism (d : Dev) (f : Bus → Bus) : (d.modBus f).prism = d.prism := rfl
@[simp] theorem modBus_phasor (d : Dev) (f : Bus → Bus) : (d.modBus f).phasor = d.phasor := rfl
@[simp] theorem modBus_wave (d : Dev) (f : Bus → Bus) : (d.modBus f).wave = d.wave := rfl
@[simp] theorem modBus_cap (d : Dev) (f : Bus → Bus) : (d.modBus f).cap = d.cap := rfl
@[simp] theorem modBus_port (d : Dev) (f : Bus → Bus) : (d.modBus f).port = d.port := rfl
@[simp] theorem modBus_hrWr (d : Dev) (f : Bus → Bus) : (d.modBus f).hrWr = d.hrWr := rfl
@[simp] theorem modBus_hrLost (d : Dev) (f : Bus → Bus) : (d.modBus f).hrLost = d.hrLost := rfl
@[simp] theorem modBus_nvm (d : Dev) (f : Bus → Bus) : (d.modBus f).nvm = d.nvm := rfl
@[simp] theorem modBus_pre (d : Dev) (f : Bus → Bus) : (d.modBus f).pre = d.pre := rfl
@[simp] theorem modBus_free (d : Dev) (f : Bus → Bus) : (d.modBus f).free = d.free := rfl
@[simp] theorem modLocus_regs (d : Dev) (f : Locus → Locus) : (d.modLocus f).regs = d.regs := rfl
@[simp] theorem modLocus_pages (d : Dev) (f : Locus → Locus) : (d.modLocus f).pages = d.pages := rfl
@[simp] theorem modLocus_viol (d : Dev) (f : Locus → Locus) : (d.modLocus f).viol = d.viol := rfl
@[simp] theorem modLocus_bus (d : Dev) (f : Locus → Locus) : (d.modLocus f).bus = d.bus := rfl
@[simp] theorem modLocus_boot (d : Dev) (f : Locus → Locus) : (d.modLocus f).boot = d.boot := rfl
@[simp] theorem modLocus_pwr (d : Dev) (f : Locus → Locus) : (d.modLocus f).pwr = d.pwr := rfl
@[simp] theorem modLocus_hull (d : Dev) (f : Locus → Locus) : (d.modLocus f).hull = d.hull := rfl
@[simp] theorem modLocus_locus (d : Dev) (f : Locus → Locus) : (d.modLocus f).locus = f d.locus := rfl
@[simp] theorem modLocus_therm (d : Dev) (f : Locus → Locus) : (d.modLocus f).therm = d.therm := rfl
@[simp] theorem modLocus_link (d : Dev) (f : Locus → Locus) : (d.modLocus f).link = d.link := rfl
@[simp] theorem modLocus_lostMap (d : Dev) (f : Locus → Locus) : (d.modLocus f).lostMap = d.lostMap := rfl
@[simp] theorem modLocus_chord (d : Dev) (f : Locus → Locus) : (d.modLocus f).chord = d.chord := rfl
@[simp] theorem modLocus_cmpStat (d : Dev) (f : Locus → Locus) : (d.modLocus f).cmpStat = d.cmpStat := rfl
@[simp] theorem modLocus_cmpDom (d : Dev) (f : Locus → Locus) : (d.modLocus f).cmpDom = d.cmpDom := rfl
@[simp] theorem modLocus_vcell (d : Dev) (f : Locus → Locus) : (d.modLocus f).vcell = d.vcell := rfl
@[simp] theorem modLocus_vstr (d : Dev) (f : Locus → Locus) : (d.modLocus f).vstr = d.vstr := rfl
@[simp] theorem modLocus_vRun (d : Dev) (f : Locus → Locus) : (d.modLocus f).vRun = d.vRun := rfl
@[simp] theorem modLocus_vBlk (d : Dev) (f : Locus → Locus) : (d.modLocus f).vBlk = d.vBlk := rfl
@[simp] theorem modLocus_vLat (d : Dev) (f : Locus → Locus) : (d.modLocus f).vLat = d.vLat := rfl
@[simp] theorem modLocus_lat (d : Dev) (f : Locus → Locus) : (d.modLocus f).lat = d.lat := rfl
@[simp] theorem modLocus_model (d : Dev) (f : Locus → Locus) : (d.modLocus f).model = d.model := rfl
@[simp] theorem modLocus_diag (d : Dev) (f : Locus → Locus) : (d.modLocus f).diag = d.diag := rfl
@[simp] theorem modLocus_prism (d : Dev) (f : Locus → Locus) : (d.modLocus f).prism = d.prism := rfl
@[simp] theorem modLocus_phasor (d : Dev) (f : Locus → Locus) : (d.modLocus f).phasor = d.phasor := rfl
@[simp] theorem modLocus_wave (d : Dev) (f : Locus → Locus) : (d.modLocus f).wave = d.wave := rfl
@[simp] theorem modLocus_cap (d : Dev) (f : Locus → Locus) : (d.modLocus f).cap = d.cap := rfl
@[simp] theorem modLocus_port (d : Dev) (f : Locus → Locus) : (d.modLocus f).port = d.port := rfl
@[simp] theorem modLocus_hrWr (d : Dev) (f : Locus → Locus) : (d.modLocus f).hrWr = d.hrWr := rfl
@[simp] theorem modLocus_hrLost (d : Dev) (f : Locus → Locus) : (d.modLocus f).hrLost = d.hrLost := rfl
@[simp] theorem modLocus_nvm (d : Dev) (f : Locus → Locus) : (d.modLocus f).nvm = d.nvm := rfl
@[simp] theorem modLocus_pre (d : Dev) (f : Locus → Locus) : (d.modLocus f).pre = d.pre := rfl
@[simp] theorem modLocus_free (d : Dev) (f : Locus → Locus) : (d.modLocus f).free = d.free := rfl
@[simp] theorem modTherm_regs (d : Dev) (f : Therm → Therm) : (d.modTherm f).regs = d.regs := rfl
@[simp] theorem modTherm_pages (d : Dev) (f : Therm → Therm) : (d.modTherm f).pages = d.pages := rfl
@[simp] theorem modTherm_viol (d : Dev) (f : Therm → Therm) : (d.modTherm f).viol = d.viol := rfl
@[simp] theorem modTherm_bus (d : Dev) (f : Therm → Therm) : (d.modTherm f).bus = d.bus := rfl
@[simp] theorem modTherm_boot (d : Dev) (f : Therm → Therm) : (d.modTherm f).boot = d.boot := rfl
@[simp] theorem modTherm_pwr (d : Dev) (f : Therm → Therm) : (d.modTherm f).pwr = d.pwr := rfl
@[simp] theorem modTherm_hull (d : Dev) (f : Therm → Therm) : (d.modTherm f).hull = d.hull := rfl
@[simp] theorem modTherm_locus (d : Dev) (f : Therm → Therm) : (d.modTherm f).locus = d.locus := rfl
@[simp] theorem modTherm_therm (d : Dev) (f : Therm → Therm) : (d.modTherm f).therm = f d.therm := rfl
@[simp] theorem modTherm_link (d : Dev) (f : Therm → Therm) : (d.modTherm f).link = d.link := rfl
@[simp] theorem modTherm_lostMap (d : Dev) (f : Therm → Therm) : (d.modTherm f).lostMap = d.lostMap := rfl
@[simp] theorem modTherm_chord (d : Dev) (f : Therm → Therm) : (d.modTherm f).chord = d.chord := rfl
@[simp] theorem modTherm_cmpStat (d : Dev) (f : Therm → Therm) : (d.modTherm f).cmpStat = d.cmpStat := rfl
@[simp] theorem modTherm_cmpDom (d : Dev) (f : Therm → Therm) : (d.modTherm f).cmpDom = d.cmpDom := rfl
@[simp] theorem modTherm_vcell (d : Dev) (f : Therm → Therm) : (d.modTherm f).vcell = d.vcell := rfl
@[simp] theorem modTherm_vstr (d : Dev) (f : Therm → Therm) : (d.modTherm f).vstr = d.vstr := rfl
@[simp] theorem modTherm_vRun (d : Dev) (f : Therm → Therm) : (d.modTherm f).vRun = d.vRun := rfl
@[simp] theorem modTherm_vBlk (d : Dev) (f : Therm → Therm) : (d.modTherm f).vBlk = d.vBlk := rfl
@[simp] theorem modTherm_vLat (d : Dev) (f : Therm → Therm) : (d.modTherm f).vLat = d.vLat := rfl
@[simp] theorem modTherm_lat (d : Dev) (f : Therm → Therm) : (d.modTherm f).lat = d.lat := rfl
@[simp] theorem modTherm_model (d : Dev) (f : Therm → Therm) : (d.modTherm f).model = d.model := rfl
@[simp] theorem modTherm_diag (d : Dev) (f : Therm → Therm) : (d.modTherm f).diag = d.diag := rfl
@[simp] theorem modTherm_prism (d : Dev) (f : Therm → Therm) : (d.modTherm f).prism = d.prism := rfl
@[simp] theorem modTherm_phasor (d : Dev) (f : Therm → Therm) : (d.modTherm f).phasor = d.phasor := rfl
@[simp] theorem modTherm_wave (d : Dev) (f : Therm → Therm) : (d.modTherm f).wave = d.wave := rfl
@[simp] theorem modTherm_cap (d : Dev) (f : Therm → Therm) : (d.modTherm f).cap = d.cap := rfl
@[simp] theorem modTherm_port (d : Dev) (f : Therm → Therm) : (d.modTherm f).port = d.port := rfl
@[simp] theorem modTherm_hrWr (d : Dev) (f : Therm → Therm) : (d.modTherm f).hrWr = d.hrWr := rfl
@[simp] theorem modTherm_hrLost (d : Dev) (f : Therm → Therm) : (d.modTherm f).hrLost = d.hrLost := rfl
@[simp] theorem modTherm_nvm (d : Dev) (f : Therm → Therm) : (d.modTherm f).nvm = d.nvm := rfl
@[simp] theorem modTherm_pre (d : Dev) (f : Therm → Therm) : (d.modTherm f).pre = d.pre := rfl
@[simp] theorem modTherm_free (d : Dev) (f : Therm → Therm) : (d.modTherm f).free = d.free := rfl
@[simp] theorem modLat_regs (d : Dev) (f : Lattice → Lattice) : (d.modLat f).regs = d.regs := rfl
@[simp] theorem modLat_pages (d : Dev) (f : Lattice → Lattice) : (d.modLat f).pages = d.pages := rfl
@[simp] theorem modLat_viol (d : Dev) (f : Lattice → Lattice) : (d.modLat f).viol = d.viol := rfl
@[simp] theorem modLat_bus (d : Dev) (f : Lattice → Lattice) : (d.modLat f).bus = d.bus := rfl
@[simp] theorem modLat_boot (d : Dev) (f : Lattice → Lattice) : (d.modLat f).boot = d.boot := rfl
@[simp] theorem modLat_pwr (d : Dev) (f : Lattice → Lattice) : (d.modLat f).pwr = d.pwr := rfl
@[simp] theorem modLat_hull (d : Dev) (f : Lattice → Lattice) : (d.modLat f).hull = d.hull := rfl
@[simp] theorem modLat_locus (d : Dev) (f : Lattice → Lattice) : (d.modLat f).locus = d.locus := rfl
@[simp] theorem modLat_therm (d : Dev) (f : Lattice → Lattice) : (d.modLat f).therm = d.therm := rfl
@[simp] theorem modLat_link (d : Dev) (f : Lattice → Lattice) : (d.modLat f).link = d.link := rfl
@[simp] theorem modLat_lostMap (d : Dev) (f : Lattice → Lattice) : (d.modLat f).lostMap = d.lostMap := rfl
@[simp] theorem modLat_chord (d : Dev) (f : Lattice → Lattice) : (d.modLat f).chord = d.chord := rfl
@[simp] theorem modLat_cmpStat (d : Dev) (f : Lattice → Lattice) : (d.modLat f).cmpStat = d.cmpStat := rfl
@[simp] theorem modLat_cmpDom (d : Dev) (f : Lattice → Lattice) : (d.modLat f).cmpDom = d.cmpDom := rfl
@[simp] theorem modLat_vcell (d : Dev) (f : Lattice → Lattice) : (d.modLat f).vcell = d.vcell := rfl
@[simp] theorem modLat_vstr (d : Dev) (f : Lattice → Lattice) : (d.modLat f).vstr = d.vstr := rfl
@[simp] theorem modLat_vRun (d : Dev) (f : Lattice → Lattice) : (d.modLat f).vRun = d.vRun := rfl
@[simp] theorem modLat_vBlk (d : Dev) (f : Lattice → Lattice) : (d.modLat f).vBlk = d.vBlk := rfl
@[simp] theorem modLat_vLat (d : Dev) (f : Lattice → Lattice) : (d.modLat f).vLat = d.vLat := rfl
@[simp] theorem modLat_lat (d : Dev) (f : Lattice → Lattice) : (d.modLat f).lat = f d.lat := rfl
@[simp] theorem modLat_model (d : Dev) (f : Lattice → Lattice) : (d.modLat f).model = d.model := rfl
@[simp] theorem modLat_diag (d : Dev) (f : Lattice → Lattice) : (d.modLat f).diag = d.diag := rfl
@[simp] theorem modLat_prism (d : Dev) (f : Lattice → Lattice) : (d.modLat f).prism = d.prism := rfl
@[simp] theorem modLat_phasor (d : Dev) (f : Lattice → Lattice) : (d.modLat f).phasor = d.phasor := rfl
@[simp] theorem modLat_wave (d : Dev) (f : Lattice → Lattice) : (d.modLat f).wave = d.wave := rfl
@[simp] theorem modLat_cap (d : Dev) (f : Lattice → Lattice) : (d.modLat f).cap = d.cap := rfl
@[simp] theorem modLat_port (d : Dev) (f : Lattice → Lattice) : (d.modLat f).port = d.port := rfl
@[simp] theorem modLat_hrWr (d : Dev) (f : Lattice → Lattice) : (d.modLat f).hrWr = d.hrWr := rfl
@[simp] theorem modLat_hrLost (d : Dev) (f : Lattice → Lattice) : (d.modLat f).hrLost = d.hrLost := rfl
@[simp] theorem modLat_nvm (d : Dev) (f : Lattice → Lattice) : (d.modLat f).nvm = d.nvm := rfl
@[simp] theorem modLat_pre (d : Dev) (f : Lattice → Lattice) : (d.modLat f).pre = d.pre := rfl
@[simp] theorem modLat_free (d : Dev) (f : Lattice → Lattice) : (d.modLat f).free = d.free := rfl
@[simp] theorem modCap_regs (d : Dev) (f : Capture → Capture) : (d.modCap f).regs = d.regs := rfl
@[simp] theorem modCap_pages (d : Dev) (f : Capture → Capture) : (d.modCap f).pages = d.pages := rfl
@[simp] theorem modCap_viol (d : Dev) (f : Capture → Capture) : (d.modCap f).viol = d.viol := rfl
@[simp] theorem modCap_bus (d : Dev) (f : Capture → Capture) : (d.modCap f).bus = d.bus := rfl
@[simp] theorem modCap_boot (d : Dev) (f : Capture → Capture) : (d.modCap f).boot = d.boot := rfl
@[simp] theorem modCap_pwr (d : Dev) (f : Capture → Capture) : (d.modCap f).pwr = d.pwr := rfl
@[simp] theorem modCap_hull (d : Dev) (f : Capture → Capture) : (d.modCap f).hull = d.hull := rfl
@[simp] theorem modCap_locus (d : Dev) (f : Capture → Capture) : (d.modCap f).locus = d.locus := rfl
@[simp] theorem modCap_therm (d : Dev) (f : Capture → Capture) : (d.modCap f).therm = d.therm := rfl
@[simp] theorem modCap_link (d : Dev) (f : Capture → Capture) : (d.modCap f).link = d.link := rfl
@[simp] theorem modCap_lostMap (d : Dev) (f : Capture → Capture) : (d.modCap f).lostMap = d.lostMap := rfl
@[simp] theorem modCap_chord (d : Dev) (f : Capture → Capture) : (d.modCap f).chord = d.chord := rfl
@[simp] theorem modCap_cmpStat (d : Dev) (f : Capture → Capture) : (d.modCap f).cmpStat = d.cmpStat := rfl
@[simp] theorem modCap_cmpDom (d : Dev) (f : Capture → Capture) : (d.modCap f).cmpDom = d.cmpDom := rfl
@[simp] theorem modCap_vcell (d : Dev) (f : Capture → Capture) : (d.modCap f).vcell = d.vcell := rfl
@[simp] theorem modCap_vstr (d : Dev) (f : Capture → Capture) : (d.modCap f).vstr = d.vstr := rfl
@[simp] theorem modCap_vRun (d : Dev) (f : Capture → Capture) : (d.modCap f).vRun = d.vRun := rfl
@[simp] theorem modCap_vBlk (d : Dev) (f : Capture → Capture) : (d.modCap f).vBlk = d.vBlk := rfl
@[simp] theorem modCap_vLat (d : Dev) (f : Capture → Capture) : (d.modCap f).vLat = d.vLat := rfl
@[simp] theorem modCap_lat (d : Dev) (f : Capture → Capture) : (d.modCap f).lat = d.lat := rfl
@[simp] theorem modCap_model (d : Dev) (f : Capture → Capture) : (d.modCap f).model = d.model := rfl
@[simp] theorem modCap_diag (d : Dev) (f : Capture → Capture) : (d.modCap f).diag = d.diag := rfl
@[simp] theorem modCap_prism (d : Dev) (f : Capture → Capture) : (d.modCap f).prism = d.prism := rfl
@[simp] theorem modCap_phasor (d : Dev) (f : Capture → Capture) : (d.modCap f).phasor = d.phasor := rfl
@[simp] theorem modCap_wave (d : Dev) (f : Capture → Capture) : (d.modCap f).wave = d.wave := rfl
@[simp] theorem modCap_cap (d : Dev) (f : Capture → Capture) : (d.modCap f).cap = f d.cap := rfl
@[simp] theorem modCap_port (d : Dev) (f : Capture → Capture) : (d.modCap f).port = d.port := rfl
@[simp] theorem modCap_hrWr (d : Dev) (f : Capture → Capture) : (d.modCap f).hrWr = d.hrWr := rfl
@[simp] theorem modCap_hrLost (d : Dev) (f : Capture → Capture) : (d.modCap f).hrLost = d.hrLost := rfl
@[simp] theorem modCap_nvm (d : Dev) (f : Capture → Capture) : (d.modCap f).nvm = d.nvm := rfl
@[simp] theorem modCap_pre (d : Dev) (f : Capture → Capture) : (d.modCap f).pre = d.pre := rfl
@[simp] theorem modCap_free (d : Dev) (f : Capture → Capture) : (d.modCap f).free = d.free := rfl
@[simp] theorem modNvm_regs (d : Dev) (f : Nvm → Nvm) : (d.modNvm f).regs = d.regs := rfl
@[simp] theorem modNvm_pages (d : Dev) (f : Nvm → Nvm) : (d.modNvm f).pages = d.pages := rfl
@[simp] theorem modNvm_viol (d : Dev) (f : Nvm → Nvm) : (d.modNvm f).viol = d.viol := rfl
@[simp] theorem modNvm_bus (d : Dev) (f : Nvm → Nvm) : (d.modNvm f).bus = d.bus := rfl
@[simp] theorem modNvm_boot (d : Dev) (f : Nvm → Nvm) : (d.modNvm f).boot = d.boot := rfl
@[simp] theorem modNvm_pwr (d : Dev) (f : Nvm → Nvm) : (d.modNvm f).pwr = d.pwr := rfl
@[simp] theorem modNvm_hull (d : Dev) (f : Nvm → Nvm) : (d.modNvm f).hull = d.hull := rfl
@[simp] theorem modNvm_locus (d : Dev) (f : Nvm → Nvm) : (d.modNvm f).locus = d.locus := rfl
@[simp] theorem modNvm_therm (d : Dev) (f : Nvm → Nvm) : (d.modNvm f).therm = d.therm := rfl
@[simp] theorem modNvm_link (d : Dev) (f : Nvm → Nvm) : (d.modNvm f).link = d.link := rfl
@[simp] theorem modNvm_lostMap (d : Dev) (f : Nvm → Nvm) : (d.modNvm f).lostMap = d.lostMap := rfl
@[simp] theorem modNvm_chord (d : Dev) (f : Nvm → Nvm) : (d.modNvm f).chord = d.chord := rfl
@[simp] theorem modNvm_cmpStat (d : Dev) (f : Nvm → Nvm) : (d.modNvm f).cmpStat = d.cmpStat := rfl
@[simp] theorem modNvm_cmpDom (d : Dev) (f : Nvm → Nvm) : (d.modNvm f).cmpDom = d.cmpDom := rfl
@[simp] theorem modNvm_vcell (d : Dev) (f : Nvm → Nvm) : (d.modNvm f).vcell = d.vcell := rfl
@[simp] theorem modNvm_vstr (d : Dev) (f : Nvm → Nvm) : (d.modNvm f).vstr = d.vstr := rfl
@[simp] theorem modNvm_vRun (d : Dev) (f : Nvm → Nvm) : (d.modNvm f).vRun = d.vRun := rfl
@[simp] theorem modNvm_vBlk (d : Dev) (f : Nvm → Nvm) : (d.modNvm f).vBlk = d.vBlk := rfl
@[simp] theorem modNvm_vLat (d : Dev) (f : Nvm → Nvm) : (d.modNvm f).vLat = d.vLat := rfl
@[simp] theorem modNvm_lat (d : Dev) (f : Nvm → Nvm) : (d.modNvm f).lat = d.lat := rfl
@[simp] theorem modNvm_model (d : Dev) (f : Nvm → Nvm) : (d.modNvm f).model = d.model := rfl
@[simp] theorem modNvm_diag (d : Dev) (f : Nvm → Nvm) : (d.modNvm f).diag = d.diag := rfl
@[simp] theorem modNvm_prism (d : Dev) (f : Nvm → Nvm) : (d.modNvm f).prism = d.prism := rfl
@[simp] theorem modNvm_phasor (d : Dev) (f : Nvm → Nvm) : (d.modNvm f).phasor = d.phasor := rfl
@[simp] theorem modNvm_wave (d : Dev) (f : Nvm → Nvm) : (d.modNvm f).wave = d.wave := rfl
@[simp] theorem modNvm_cap (d : Dev) (f : Nvm → Nvm) : (d.modNvm f).cap = d.cap := rfl
@[simp] theorem modNvm_port (d : Dev) (f : Nvm → Nvm) : (d.modNvm f).port = d.port := rfl
@[simp] theorem modNvm_hrWr (d : Dev) (f : Nvm → Nvm) : (d.modNvm f).hrWr = d.hrWr := rfl
@[simp] theorem modNvm_hrLost (d : Dev) (f : Nvm → Nvm) : (d.modNvm f).hrLost = d.hrLost := rfl
@[simp] theorem modNvm_nvm (d : Dev) (f : Nvm → Nvm) : (d.modNvm f).nvm = f d.nvm := rfl
@[simp] theorem modNvm_pre (d : Dev) (f : Nvm → Nvm) : (d.modNvm f).pre = d.pre := rfl
@[simp] theorem modNvm_free (d : Dev) (f : Nvm → Nvm) : (d.modNvm f).free = d.free := rfl
@[simp] theorem modDiag_regs (d : Dev) (f : Diag → Diag) : (d.modDiag f).regs = d.regs := rfl
@[simp] theorem modDiag_pages (d : Dev) (f : Diag → Diag) : (d.modDiag f).pages = d.pages := rfl
@[simp] theorem modDiag_viol (d : Dev) (f : Diag → Diag) : (d.modDiag f).viol = d.viol := rfl
@[simp] theorem modDiag_bus (d : Dev) (f : Diag → Diag) : (d.modDiag f).bus = d.bus := rfl
@[simp] theorem modDiag_boot (d : Dev) (f : Diag → Diag) : (d.modDiag f).boot = d.boot := rfl
@[simp] theorem modDiag_pwr (d : Dev) (f : Diag → Diag) : (d.modDiag f).pwr = d.pwr := rfl
@[simp] theorem modDiag_hull (d : Dev) (f : Diag → Diag) : (d.modDiag f).hull = d.hull := rfl
@[simp] theorem modDiag_locus (d : Dev) (f : Diag → Diag) : (d.modDiag f).locus = d.locus := rfl
@[simp] theorem modDiag_therm (d : Dev) (f : Diag → Diag) : (d.modDiag f).therm = d.therm := rfl
@[simp] theorem modDiag_link (d : Dev) (f : Diag → Diag) : (d.modDiag f).link = d.link := rfl
@[simp] theorem modDiag_lostMap (d : Dev) (f : Diag → Diag) : (d.modDiag f).lostMap = d.lostMap := rfl
@[simp] theorem modDiag_chord (d : Dev) (f : Diag → Diag) : (d.modDiag f).chord = d.chord := rfl
@[simp] theorem modDiag_cmpStat (d : Dev) (f : Diag → Diag) : (d.modDiag f).cmpStat = d.cmpStat := rfl
@[simp] theorem modDiag_cmpDom (d : Dev) (f : Diag → Diag) : (d.modDiag f).cmpDom = d.cmpDom := rfl
@[simp] theorem modDiag_vcell (d : Dev) (f : Diag → Diag) : (d.modDiag f).vcell = d.vcell := rfl
@[simp] theorem modDiag_vstr (d : Dev) (f : Diag → Diag) : (d.modDiag f).vstr = d.vstr := rfl
@[simp] theorem modDiag_vRun (d : Dev) (f : Diag → Diag) : (d.modDiag f).vRun = d.vRun := rfl
@[simp] theorem modDiag_vBlk (d : Dev) (f : Diag → Diag) : (d.modDiag f).vBlk = d.vBlk := rfl
@[simp] theorem modDiag_vLat (d : Dev) (f : Diag → Diag) : (d.modDiag f).vLat = d.vLat := rfl
@[simp] theorem modDiag_lat (d : Dev) (f : Diag → Diag) : (d.modDiag f).lat = d.lat := rfl
@[simp] theorem modDiag_model (d : Dev) (f : Diag → Diag) : (d.modDiag f).model = d.model := rfl
@[simp] theorem modDiag_diag (d : Dev) (f : Diag → Diag) : (d.modDiag f).diag = f d.diag := rfl
@[simp] theorem modDiag_prism (d : Dev) (f : Diag → Diag) : (d.modDiag f).prism = d.prism := rfl
@[simp] theorem modDiag_phasor (d : Dev) (f : Diag → Diag) : (d.modDiag f).phasor = d.phasor := rfl
@[simp] theorem modDiag_wave (d : Dev) (f : Diag → Diag) : (d.modDiag f).wave = d.wave := rfl
@[simp] theorem modDiag_cap (d : Dev) (f : Diag → Diag) : (d.modDiag f).cap = d.cap := rfl
@[simp] theorem modDiag_port (d : Dev) (f : Diag → Diag) : (d.modDiag f).port = d.port := rfl
@[simp] theorem modDiag_hrWr (d : Dev) (f : Diag → Diag) : (d.modDiag f).hrWr = d.hrWr := rfl
@[simp] theorem modDiag_hrLost (d : Dev) (f : Diag → Diag) : (d.modDiag f).hrLost = d.hrLost := rfl
@[simp] theorem modDiag_nvm (d : Dev) (f : Diag → Diag) : (d.modDiag f).nvm = d.nvm := rfl
@[simp] theorem modDiag_pre (d : Dev) (f : Diag → Diag) : (d.modDiag f).pre = d.pre := rfl
@[simp] theorem modDiag_free (d : Dev) (f : Diag → Diag) : (d.modDiag f).free = d.free := rfl
@[simp] theorem modPrism_regs (d : Dev) (f : Prism → Prism) : (d.modPrism f).regs = d.regs := rfl
@[simp] theorem modPrism_pages (d : Dev) (f : Prism → Prism) : (d.modPrism f).pages = d.pages := rfl
@[simp] theorem modPrism_viol (d : Dev) (f : Prism → Prism) : (d.modPrism f).viol = d.viol := rfl
@[simp] theorem modPrism_bus (d : Dev) (f : Prism → Prism) : (d.modPrism f).bus = d.bus := rfl
@[simp] theorem modPrism_boot (d : Dev) (f : Prism → Prism) : (d.modPrism f).boot = d.boot := rfl
@[simp] theorem modPrism_pwr (d : Dev) (f : Prism → Prism) : (d.modPrism f).pwr = d.pwr := rfl
@[simp] theorem modPrism_hull (d : Dev) (f : Prism → Prism) : (d.modPrism f).hull = d.hull := rfl
@[simp] theorem modPrism_locus (d : Dev) (f : Prism → Prism) : (d.modPrism f).locus = d.locus := rfl
@[simp] theorem modPrism_therm (d : Dev) (f : Prism → Prism) : (d.modPrism f).therm = d.therm := rfl
@[simp] theorem modPrism_link (d : Dev) (f : Prism → Prism) : (d.modPrism f).link = d.link := rfl
@[simp] theorem modPrism_lostMap (d : Dev) (f : Prism → Prism) : (d.modPrism f).lostMap = d.lostMap := rfl
@[simp] theorem modPrism_chord (d : Dev) (f : Prism → Prism) : (d.modPrism f).chord = d.chord := rfl
@[simp] theorem modPrism_cmpStat (d : Dev) (f : Prism → Prism) : (d.modPrism f).cmpStat = d.cmpStat := rfl
@[simp] theorem modPrism_cmpDom (d : Dev) (f : Prism → Prism) : (d.modPrism f).cmpDom = d.cmpDom := rfl
@[simp] theorem modPrism_vcell (d : Dev) (f : Prism → Prism) : (d.modPrism f).vcell = d.vcell := rfl
@[simp] theorem modPrism_vstr (d : Dev) (f : Prism → Prism) : (d.modPrism f).vstr = d.vstr := rfl
@[simp] theorem modPrism_vRun (d : Dev) (f : Prism → Prism) : (d.modPrism f).vRun = d.vRun := rfl
@[simp] theorem modPrism_vBlk (d : Dev) (f : Prism → Prism) : (d.modPrism f).vBlk = d.vBlk := rfl
@[simp] theorem modPrism_vLat (d : Dev) (f : Prism → Prism) : (d.modPrism f).vLat = d.vLat := rfl
@[simp] theorem modPrism_lat (d : Dev) (f : Prism → Prism) : (d.modPrism f).lat = d.lat := rfl
@[simp] theorem modPrism_model (d : Dev) (f : Prism → Prism) : (d.modPrism f).model = d.model := rfl
@[simp] theorem modPrism_diag (d : Dev) (f : Prism → Prism) : (d.modPrism f).diag = d.diag := rfl
@[simp] theorem modPrism_prism (d : Dev) (f : Prism → Prism) : (d.modPrism f).prism = f d.prism := rfl
@[simp] theorem modPrism_phasor (d : Dev) (f : Prism → Prism) : (d.modPrism f).phasor = d.phasor := rfl
@[simp] theorem modPrism_wave (d : Dev) (f : Prism → Prism) : (d.modPrism f).wave = d.wave := rfl
@[simp] theorem modPrism_cap (d : Dev) (f : Prism → Prism) : (d.modPrism f).cap = d.cap := rfl
@[simp] theorem modPrism_port (d : Dev) (f : Prism → Prism) : (d.modPrism f).port = d.port := rfl
@[simp] theorem modPrism_hrWr (d : Dev) (f : Prism → Prism) : (d.modPrism f).hrWr = d.hrWr := rfl
@[simp] theorem modPrism_hrLost (d : Dev) (f : Prism → Prism) : (d.modPrism f).hrLost = d.hrLost := rfl
@[simp] theorem modPrism_nvm (d : Dev) (f : Prism → Prism) : (d.modPrism f).nvm = d.nvm := rfl
@[simp] theorem modPrism_pre (d : Dev) (f : Prism → Prism) : (d.modPrism f).pre = d.pre := rfl
@[simp] theorem modPrism_free (d : Dev) (f : Prism → Prism) : (d.modPrism f).free = d.free := rfl
@[simp] theorem modPhasor_regs (d : Dev) (f : Phasor → Phasor) : (d.modPhasor f).regs = d.regs := rfl
@[simp] theorem modPhasor_pages (d : Dev) (f : Phasor → Phasor) : (d.modPhasor f).pages = d.pages := rfl
@[simp] theorem modPhasor_viol (d : Dev) (f : Phasor → Phasor) : (d.modPhasor f).viol = d.viol := rfl
@[simp] theorem modPhasor_bus (d : Dev) (f : Phasor → Phasor) : (d.modPhasor f).bus = d.bus := rfl
@[simp] theorem modPhasor_boot (d : Dev) (f : Phasor → Phasor) : (d.modPhasor f).boot = d.boot := rfl
@[simp] theorem modPhasor_pwr (d : Dev) (f : Phasor → Phasor) : (d.modPhasor f).pwr = d.pwr := rfl
@[simp] theorem modPhasor_hull (d : Dev) (f : Phasor → Phasor) : (d.modPhasor f).hull = d.hull := rfl
@[simp] theorem modPhasor_locus (d : Dev) (f : Phasor → Phasor) : (d.modPhasor f).locus = d.locus := rfl
@[simp] theorem modPhasor_therm (d : Dev) (f : Phasor → Phasor) : (d.modPhasor f).therm = d.therm := rfl
@[simp] theorem modPhasor_link (d : Dev) (f : Phasor → Phasor) : (d.modPhasor f).link = d.link := rfl
@[simp] theorem modPhasor_lostMap (d : Dev) (f : Phasor → Phasor) : (d.modPhasor f).lostMap = d.lostMap := rfl
@[simp] theorem modPhasor_chord (d : Dev) (f : Phasor → Phasor) : (d.modPhasor f).chord = d.chord := rfl
@[simp] theorem modPhasor_cmpStat (d : Dev) (f : Phasor → Phasor) : (d.modPhasor f).cmpStat = d.cmpStat := rfl
@[simp] theorem modPhasor_cmpDom (d : Dev) (f : Phasor → Phasor) : (d.modPhasor f).cmpDom = d.cmpDom := rfl
@[simp] theorem modPhasor_vcell (d : Dev) (f : Phasor → Phasor) : (d.modPhasor f).vcell = d.vcell := rfl
@[simp] theorem modPhasor_vstr (d : Dev) (f : Phasor → Phasor) : (d.modPhasor f).vstr = d.vstr := rfl
@[simp] theorem modPhasor_vRun (d : Dev) (f : Phasor → Phasor) : (d.modPhasor f).vRun = d.vRun := rfl
@[simp] theorem modPhasor_vBlk (d : Dev) (f : Phasor → Phasor) : (d.modPhasor f).vBlk = d.vBlk := rfl
@[simp] theorem modPhasor_vLat (d : Dev) (f : Phasor → Phasor) : (d.modPhasor f).vLat = d.vLat := rfl
@[simp] theorem modPhasor_lat (d : Dev) (f : Phasor → Phasor) : (d.modPhasor f).lat = d.lat := rfl
@[simp] theorem modPhasor_model (d : Dev) (f : Phasor → Phasor) : (d.modPhasor f).model = d.model := rfl
@[simp] theorem modPhasor_diag (d : Dev) (f : Phasor → Phasor) : (d.modPhasor f).diag = d.diag := rfl
@[simp] theorem modPhasor_prism (d : Dev) (f : Phasor → Phasor) : (d.modPhasor f).prism = d.prism := rfl
@[simp] theorem modPhasor_phasor (d : Dev) (f : Phasor → Phasor) : (d.modPhasor f).phasor = f d.phasor := rfl
@[simp] theorem modPhasor_wave (d : Dev) (f : Phasor → Phasor) : (d.modPhasor f).wave = d.wave := rfl
@[simp] theorem modPhasor_cap (d : Dev) (f : Phasor → Phasor) : (d.modPhasor f).cap = d.cap := rfl
@[simp] theorem modPhasor_port (d : Dev) (f : Phasor → Phasor) : (d.modPhasor f).port = d.port := rfl
@[simp] theorem modPhasor_hrWr (d : Dev) (f : Phasor → Phasor) : (d.modPhasor f).hrWr = d.hrWr := rfl
@[simp] theorem modPhasor_hrLost (d : Dev) (f : Phasor → Phasor) : (d.modPhasor f).hrLost = d.hrLost := rfl
@[simp] theorem modPhasor_nvm (d : Dev) (f : Phasor → Phasor) : (d.modPhasor f).nvm = d.nvm := rfl
@[simp] theorem modPhasor_pre (d : Dev) (f : Phasor → Phasor) : (d.modPhasor f).pre = d.pre := rfl
@[simp] theorem modPhasor_free (d : Dev) (f : Phasor → Phasor) : (d.modPhasor f).free = d.free := rfl
@[simp] theorem modWave_regs (d : Dev) (f : Wave → Wave) : (d.modWave f).regs = d.regs := rfl
@[simp] theorem modWave_pages (d : Dev) (f : Wave → Wave) : (d.modWave f).pages = d.pages := rfl
@[simp] theorem modWave_viol (d : Dev) (f : Wave → Wave) : (d.modWave f).viol = d.viol := rfl
@[simp] theorem modWave_bus (d : Dev) (f : Wave → Wave) : (d.modWave f).bus = d.bus := rfl
@[simp] theorem modWave_boot (d : Dev) (f : Wave → Wave) : (d.modWave f).boot = d.boot := rfl
@[simp] theorem modWave_pwr (d : Dev) (f : Wave → Wave) : (d.modWave f).pwr = d.pwr := rfl
@[simp] theorem modWave_hull (d : Dev) (f : Wave → Wave) : (d.modWave f).hull = d.hull := rfl
@[simp] theorem modWave_locus (d : Dev) (f : Wave → Wave) : (d.modWave f).locus = d.locus := rfl
@[simp] theorem modWave_therm (d : Dev) (f : Wave → Wave) : (d.modWave f).therm = d.therm := rfl
@[simp] theorem modWave_link (d : Dev) (f : Wave → Wave) : (d.modWave f).link = d.link := rfl
@[simp] theorem modWave_lostMap (d : Dev) (f : Wave → Wave) : (d.modWave f).lostMap = d.lostMap := rfl
@[simp] theorem modWave_chord (d : Dev) (f : Wave → Wave) : (d.modWave f).chord = d.chord := rfl
@[simp] theorem modWave_cmpStat (d : Dev) (f : Wave → Wave) : (d.modWave f).cmpStat = d.cmpStat := rfl
@[simp] theorem modWave_cmpDom (d : Dev) (f : Wave → Wave) : (d.modWave f).cmpDom = d.cmpDom := rfl
@[simp] theorem modWave_vcell (d : Dev) (f : Wave → Wave) : (d.modWave f).vcell = d.vcell := rfl
@[simp] theorem modWave_vstr (d : Dev) (f : Wave → Wave) : (d.modWave f).vstr = d.vstr := rfl
@[simp] theorem modWave_vRun (d : Dev) (f : Wave → Wave) : (d.modWave f).vRun = d.vRun := rfl
@[simp] theorem modWave_vBlk (d : Dev) (f : Wave → Wave) : (d.modWave f).vBlk = d.vBlk := rfl
@[simp] theorem modWave_vLat (d : Dev) (f : Wave → Wave) : (d.modWave f).vLat = d.vLat := rfl
@[simp] theorem modWave_lat (d : Dev) (f : Wave → Wave) : (d.modWave f).lat = d.lat := rfl
@[simp] theorem modWave_model (d : Dev) (f : Wave → Wave) : (d.modWave f).model = d.model := rfl
@[simp] theorem modWave_diag (d : Dev) (f : Wave → Wave) : (d.modWave f).diag = d.diag := rfl
@[simp] theorem modWave_prism (d : Dev) (f : Wave → Wave) : (d.modWave f).prism = d.prism := rfl
@[simp] theorem modWave_phasor (d : Dev) (f : Wave → Wave) : (d.modWave f).phasor = d.phasor := rfl
@[simp] theorem modWave_wave (d : Dev) (f : Wave → Wave) : (d.modWave f).wave = f d.wave := rfl
@[simp] theorem modWave_cap (d : Dev) (f : Wave → Wave) : (d.modWave f).cap = d.cap := rfl
@[simp] theorem modWave_port (d : Dev) (f : Wave → Wave) : (d.modWave f).port = d.port := rfl
@[simp] theorem modWave_hrWr (d : Dev) (f : Wave → Wave) : (d.modWave f).hrWr = d.hrWr := rfl
@[simp] theorem modWave_hrLost (d : Dev) (f : Wave → Wave) : (d.modWave f).hrLost = d.hrLost := rfl
@[simp] theorem modWave_nvm (d : Dev) (f : Wave → Wave) : (d.modWave f).nvm = d.nvm := rfl
@[simp] theorem modWave_pre (d : Dev) (f : Wave → Wave) : (d.modWave f).pre = d.pre := rfl
@[simp] theorem modWave_free (d : Dev) (f : Wave → Wave) : (d.modWave f).free = d.free := rfl
@[simp] theorem modMod_regs (d : Dev) (f : Model → Model) : (d.modMod f).regs = d.regs := rfl
@[simp] theorem modMod_pages (d : Dev) (f : Model → Model) : (d.modMod f).pages = d.pages := rfl
@[simp] theorem modMod_viol (d : Dev) (f : Model → Model) : (d.modMod f).viol = d.viol := rfl
@[simp] theorem modMod_bus (d : Dev) (f : Model → Model) : (d.modMod f).bus = d.bus := rfl
@[simp] theorem modMod_boot (d : Dev) (f : Model → Model) : (d.modMod f).boot = d.boot := rfl
@[simp] theorem modMod_pwr (d : Dev) (f : Model → Model) : (d.modMod f).pwr = d.pwr := rfl
@[simp] theorem modMod_hull (d : Dev) (f : Model → Model) : (d.modMod f).hull = d.hull := rfl
@[simp] theorem modMod_locus (d : Dev) (f : Model → Model) : (d.modMod f).locus = d.locus := rfl
@[simp] theorem modMod_therm (d : Dev) (f : Model → Model) : (d.modMod f).therm = d.therm := rfl
@[simp] theorem modMod_link (d : Dev) (f : Model → Model) : (d.modMod f).link = d.link := rfl
@[simp] theorem modMod_lostMap (d : Dev) (f : Model → Model) : (d.modMod f).lostMap = d.lostMap := rfl
@[simp] theorem modMod_chord (d : Dev) (f : Model → Model) : (d.modMod f).chord = d.chord := rfl
@[simp] theorem modMod_cmpStat (d : Dev) (f : Model → Model) : (d.modMod f).cmpStat = d.cmpStat := rfl
@[simp] theorem modMod_cmpDom (d : Dev) (f : Model → Model) : (d.modMod f).cmpDom = d.cmpDom := rfl
@[simp] theorem modMod_vcell (d : Dev) (f : Model → Model) : (d.modMod f).vcell = d.vcell := rfl
@[simp] theorem modMod_vstr (d : Dev) (f : Model → Model) : (d.modMod f).vstr = d.vstr := rfl
@[simp] theorem modMod_vRun (d : Dev) (f : Model → Model) : (d.modMod f).vRun = d.vRun := rfl
@[simp] theorem modMod_vBlk (d : Dev) (f : Model → Model) : (d.modMod f).vBlk = d.vBlk := rfl
@[simp] theorem modMod_vLat (d : Dev) (f : Model → Model) : (d.modMod f).vLat = d.vLat := rfl
@[simp] theorem modMod_lat (d : Dev) (f : Model → Model) : (d.modMod f).lat = d.lat := rfl
@[simp] theorem modMod_model (d : Dev) (f : Model → Model) : (d.modMod f).model = f d.model := rfl
@[simp] theorem modMod_diag (d : Dev) (f : Model → Model) : (d.modMod f).diag = d.diag := rfl
@[simp] theorem modMod_prism (d : Dev) (f : Model → Model) : (d.modMod f).prism = d.prism := rfl
@[simp] theorem modMod_phasor (d : Dev) (f : Model → Model) : (d.modMod f).phasor = d.phasor := rfl
@[simp] theorem modMod_wave (d : Dev) (f : Model → Model) : (d.modMod f).wave = d.wave := rfl
@[simp] theorem modMod_cap (d : Dev) (f : Model → Model) : (d.modMod f).cap = d.cap := rfl
@[simp] theorem modMod_port (d : Dev) (f : Model → Model) : (d.modMod f).port = d.port := rfl
@[simp] theorem modMod_hrWr (d : Dev) (f : Model → Model) : (d.modMod f).hrWr = d.hrWr := rfl
@[simp] theorem modMod_hrLost (d : Dev) (f : Model → Model) : (d.modMod f).hrLost = d.hrLost := rfl
@[simp] theorem modMod_nvm (d : Dev) (f : Model → Model) : (d.modMod f).nvm = d.nvm := rfl
@[simp] theorem modMod_pre (d : Dev) (f : Model → Model) : (d.modMod f).pre = d.pre := rfl
@[simp] theorem modMod_free (d : Dev) (f : Model → Model) : (d.modMod f).free = d.free := rfl
@[simp] theorem modPwr_regs (d : Dev) (f : Pwr → Pwr) : (d.modPwr f).regs = d.regs := rfl
@[simp] theorem modPwr_pages (d : Dev) (f : Pwr → Pwr) : (d.modPwr f).pages = d.pages := rfl
@[simp] theorem modPwr_viol (d : Dev) (f : Pwr → Pwr) : (d.modPwr f).viol = d.viol := rfl
@[simp] theorem modPwr_bus (d : Dev) (f : Pwr → Pwr) : (d.modPwr f).bus = d.bus := rfl
@[simp] theorem modPwr_boot (d : Dev) (f : Pwr → Pwr) : (d.modPwr f).boot = d.boot := rfl
@[simp] theorem modPwr_pwr (d : Dev) (f : Pwr → Pwr) : (d.modPwr f).pwr = f d.pwr := rfl
@[simp] theorem modPwr_hull (d : Dev) (f : Pwr → Pwr) : (d.modPwr f).hull = d.hull := rfl
@[simp] theorem modPwr_locus (d : Dev) (f : Pwr → Pwr) : (d.modPwr f).locus = d.locus := rfl
@[simp] theorem modPwr_therm (d : Dev) (f : Pwr → Pwr) : (d.modPwr f).therm = d.therm := rfl
@[simp] theorem modPwr_link (d : Dev) (f : Pwr → Pwr) : (d.modPwr f).link = d.link := rfl
@[simp] theorem modPwr_lostMap (d : Dev) (f : Pwr → Pwr) : (d.modPwr f).lostMap = d.lostMap := rfl
@[simp] theorem modPwr_chord (d : Dev) (f : Pwr → Pwr) : (d.modPwr f).chord = d.chord := rfl
@[simp] theorem modPwr_cmpStat (d : Dev) (f : Pwr → Pwr) : (d.modPwr f).cmpStat = d.cmpStat := rfl
@[simp] theorem modPwr_cmpDom (d : Dev) (f : Pwr → Pwr) : (d.modPwr f).cmpDom = d.cmpDom := rfl
@[simp] theorem modPwr_vcell (d : Dev) (f : Pwr → Pwr) : (d.modPwr f).vcell = d.vcell := rfl
@[simp] theorem modPwr_vstr (d : Dev) (f : Pwr → Pwr) : (d.modPwr f).vstr = d.vstr := rfl
@[simp] theorem modPwr_vRun (d : Dev) (f : Pwr → Pwr) : (d.modPwr f).vRun = d.vRun := rfl
@[simp] theorem modPwr_vBlk (d : Dev) (f : Pwr → Pwr) : (d.modPwr f).vBlk = d.vBlk := rfl
@[simp] theorem modPwr_vLat (d : Dev) (f : Pwr → Pwr) : (d.modPwr f).vLat = d.vLat := rfl
@[simp] theorem modPwr_lat (d : Dev) (f : Pwr → Pwr) : (d.modPwr f).lat = d.lat := rfl
@[simp] theorem modPwr_model (d : Dev) (f : Pwr → Pwr) : (d.modPwr f).model = d.model := rfl
@[simp] theorem modPwr_diag (d : Dev) (f : Pwr → Pwr) : (d.modPwr f).diag = d.diag := rfl
@[simp] theorem modPwr_prism (d : Dev) (f : Pwr → Pwr) : (d.modPwr f).prism = d.prism := rfl
@[simp] theorem modPwr_phasor (d : Dev) (f : Pwr → Pwr) : (d.modPwr f).phasor = d.phasor := rfl
@[simp] theorem modPwr_wave (d : Dev) (f : Pwr → Pwr) : (d.modPwr f).wave = d.wave := rfl
@[simp] theorem modPwr_cap (d : Dev) (f : Pwr → Pwr) : (d.modPwr f).cap = d.cap := rfl
@[simp] theorem modPwr_port (d : Dev) (f : Pwr → Pwr) : (d.modPwr f).port = d.port := rfl
@[simp] theorem modPwr_hrWr (d : Dev) (f : Pwr → Pwr) : (d.modPwr f).hrWr = d.hrWr := rfl
@[simp] theorem modPwr_hrLost (d : Dev) (f : Pwr → Pwr) : (d.modPwr f).hrLost = d.hrLost := rfl
@[simp] theorem modPwr_nvm (d : Dev) (f : Pwr → Pwr) : (d.modPwr f).nvm = d.nvm := rfl
@[simp] theorem modPwr_pre (d : Dev) (f : Pwr → Pwr) : (d.modPwr f).pre = d.pre := rfl
@[simp] theorem modPwr_free (d : Dev) (f : Pwr → Pwr) : (d.modPwr f).free = d.free := rfl
@[simp] theorem updPage_regs (d : Dev) (k : Nat) (f : Page → Page) : (d.updPage k f).regs = d.regs := rfl
@[simp] theorem updPage_pages (d : Dev) (k : Nat) (f : Page → Page) : (d.updPage k f).pages = tupd {} d.pages k f := rfl
@[simp] theorem updPage_viol (d : Dev) (k : Nat) (f : Page → Page) : (d.updPage k f).viol = d.viol := rfl
@[simp] theorem updPage_bus (d : Dev) (k : Nat) (f : Page → Page) : (d.updPage k f).bus = d.bus := rfl
@[simp] theorem updPage_boot (d : Dev) (k : Nat) (f : Page → Page) : (d.updPage k f).boot = d.boot := rfl
@[simp] theorem updPage_pwr (d : Dev) (k : Nat) (f : Page → Page) : (d.updPage k f).pwr = d.pwr := rfl
@[simp] theorem updPage_hull (d : Dev) (k : Nat) (f : Page → Page) : (d.updPage k f).hull = d.hull := rfl
@[simp] theorem updPage_locus (d : Dev) (k : Nat) (f : Page → Page) : (d.updPage k f).locus = d.locus := rfl
@[simp] theorem updPage_therm (d : Dev) (k : Nat) (f : Page → Page) : (d.updPage k f).therm = d.therm := rfl
@[simp] theorem updPage_link (d : Dev) (k : Nat) (f : Page → Page) : (d.updPage k f).link = d.link := rfl
@[simp] theorem updPage_lostMap (d : Dev) (k : Nat) (f : Page → Page) : (d.updPage k f).lostMap = d.lostMap := rfl
@[simp] theorem updPage_chord (d : Dev) (k : Nat) (f : Page → Page) : (d.updPage k f).chord = d.chord := rfl
@[simp] theorem updPage_cmpStat (d : Dev) (k : Nat) (f : Page → Page) : (d.updPage k f).cmpStat = d.cmpStat := rfl
@[simp] theorem updPage_cmpDom (d : Dev) (k : Nat) (f : Page → Page) : (d.updPage k f).cmpDom = d.cmpDom := rfl
@[simp] theorem updPage_vcell (d : Dev) (k : Nat) (f : Page → Page) : (d.updPage k f).vcell = d.vcell := rfl
@[simp] theorem updPage_vstr (d : Dev) (k : Nat) (f : Page → Page) : (d.updPage k f).vstr = d.vstr := rfl
@[simp] theorem updPage_vRun (d : Dev) (k : Nat) (f : Page → Page) : (d.updPage k f).vRun = d.vRun := rfl
@[simp] theorem updPage_vBlk (d : Dev) (k : Nat) (f : Page → Page) : (d.updPage k f).vBlk = d.vBlk := rfl
@[simp] theorem updPage_vLat (d : Dev) (k : Nat) (f : Page → Page) : (d.updPage k f).vLat = d.vLat := rfl
@[simp] theorem updPage_lat (d : Dev) (k : Nat) (f : Page → Page) : (d.updPage k f).lat = d.lat := rfl
@[simp] theorem updPage_model (d : Dev) (k : Nat) (f : Page → Page) : (d.updPage k f).model = d.model := rfl
@[simp] theorem updPage_diag (d : Dev) (k : Nat) (f : Page → Page) : (d.updPage k f).diag = d.diag := rfl
@[simp] theorem updPage_prism (d : Dev) (k : Nat) (f : Page → Page) : (d.updPage k f).prism = d.prism := rfl
@[simp] theorem updPage_phasor (d : Dev) (k : Nat) (f : Page → Page) : (d.updPage k f).phasor = d.phasor := rfl
@[simp] theorem updPage_wave (d : Dev) (k : Nat) (f : Page → Page) : (d.updPage k f).wave = d.wave := rfl
@[simp] theorem updPage_cap (d : Dev) (k : Nat) (f : Page → Page) : (d.updPage k f).cap = d.cap := rfl
@[simp] theorem updPage_port (d : Dev) (k : Nat) (f : Page → Page) : (d.updPage k f).port = d.port := rfl
@[simp] theorem updPage_hrWr (d : Dev) (k : Nat) (f : Page → Page) : (d.updPage k f).hrWr = d.hrWr := rfl
@[simp] theorem updPage_hrLost (d : Dev) (k : Nat) (f : Page → Page) : (d.updPage k f).hrLost = d.hrLost := rfl
@[simp] theorem updPage_nvm (d : Dev) (k : Nat) (f : Page → Page) : (d.updPage k f).nvm = d.nvm := rfl
@[simp] theorem updPage_pre (d : Dev) (k : Nat) (f : Page → Page) : (d.updPage k f).pre = d.pre := rfl
@[simp] theorem updPage_free (d : Dev) (k : Nat) (f : Page → Page) : (d.updPage k f).free = d.free := rfl
@[simp] theorem updLink_regs (d : Dev) (k : Nat) (f : Link → Link) : (d.updLink k f).regs = d.regs := rfl
@[simp] theorem updLink_pages (d : Dev) (k : Nat) (f : Link → Link) : (d.updLink k f).pages = d.pages := rfl
@[simp] theorem updLink_viol (d : Dev) (k : Nat) (f : Link → Link) : (d.updLink k f).viol = d.viol := rfl
@[simp] theorem updLink_bus (d : Dev) (k : Nat) (f : Link → Link) : (d.updLink k f).bus = d.bus := rfl
@[simp] theorem updLink_boot (d : Dev) (k : Nat) (f : Link → Link) : (d.updLink k f).boot = d.boot := rfl
@[simp] theorem updLink_pwr (d : Dev) (k : Nat) (f : Link → Link) : (d.updLink k f).pwr = d.pwr := rfl
@[simp] theorem updLink_hull (d : Dev) (k : Nat) (f : Link → Link) : (d.updLink k f).hull = d.hull := rfl
@[simp] theorem updLink_locus (d : Dev) (k : Nat) (f : Link → Link) : (d.updLink k f).locus = d.locus := rfl
@[simp] theorem updLink_therm (d : Dev) (k : Nat) (f : Link → Link) : (d.updLink k f).therm = d.therm := rfl
@[simp] theorem updLink_link (d : Dev) (k : Nat) (f : Link → Link) : (d.updLink k f).link = tupd {} d.link k f := rfl
@[simp] theorem updLink_lostMap (d : Dev) (k : Nat) (f : Link → Link) : (d.updLink k f).lostMap = d.lostMap := rfl
@[simp] theorem updLink_chord (d : Dev) (k : Nat) (f : Link → Link) : (d.updLink k f).chord = d.chord := rfl
@[simp] theorem updLink_cmpStat (d : Dev) (k : Nat) (f : Link → Link) : (d.updLink k f).cmpStat = d.cmpStat := rfl
@[simp] theorem updLink_cmpDom (d : Dev) (k : Nat) (f : Link → Link) : (d.updLink k f).cmpDom = d.cmpDom := rfl
@[simp] theorem updLink_vcell (d : Dev) (k : Nat) (f : Link → Link) : (d.updLink k f).vcell = d.vcell := rfl
@[simp] theorem updLink_vstr (d : Dev) (k : Nat) (f : Link → Link) : (d.updLink k f).vstr = d.vstr := rfl
@[simp] theorem updLink_vRun (d : Dev) (k : Nat) (f : Link → Link) : (d.updLink k f).vRun = d.vRun := rfl
@[simp] theorem updLink_vBlk (d : Dev) (k : Nat) (f : Link → Link) : (d.updLink k f).vBlk = d.vBlk := rfl
@[simp] theorem updLink_vLat (d : Dev) (k : Nat) (f : Link → Link) : (d.updLink k f).vLat = d.vLat := rfl
@[simp] theorem updLink_lat (d : Dev) (k : Nat) (f : Link → Link) : (d.updLink k f).lat = d.lat := rfl
@[simp] theorem updLink_model (d : Dev) (k : Nat) (f : Link → Link) : (d.updLink k f).model = d.model := rfl
@[simp] theorem updLink_diag (d : Dev) (k : Nat) (f : Link → Link) : (d.updLink k f).diag = d.diag := rfl
@[simp] theorem updLink_prism (d : Dev) (k : Nat) (f : Link → Link) : (d.updLink k f).prism = d.prism := rfl
@[simp] theorem updLink_phasor (d : Dev) (k : Nat) (f : Link → Link) : (d.updLink k f).phasor = d.phasor := rfl
@[simp] theorem updLink_wave (d : Dev) (k : Nat) (f : Link → Link) : (d.updLink k f).wave = d.wave := rfl
@[simp] theorem updLink_cap (d : Dev) (k : Nat) (f : Link → Link) : (d.updLink k f).cap = d.cap := rfl
@[simp] theorem updLink_port (d : Dev) (k : Nat) (f : Link → Link) : (d.updLink k f).port = d.port := rfl
@[simp] theorem updLink_hrWr (d : Dev) (k : Nat) (f : Link → Link) : (d.updLink k f).hrWr = d.hrWr := rfl
@[simp] theorem updLink_hrLost (d : Dev) (k : Nat) (f : Link → Link) : (d.updLink k f).hrLost = d.hrLost := rfl
@[simp] theorem updLink_nvm (d : Dev) (k : Nat) (f : Link → Link) : (d.updLink k f).nvm = d.nvm := rfl
@[simp] theorem updLink_pre (d : Dev) (k : Nat) (f : Link → Link) : (d.updLink k f).pre = d.pre := rfl
@[simp] theorem updLink_free (d : Dev) (k : Nat) (f : Link → Link) : (d.updLink k f).free = d.free := rfl
@[simp] theorem updChord_regs (d : Dev) (k : Nat) (f : Chord → Chord) : (d.updChord k f).regs = d.regs := rfl
@[simp] theorem updChord_pages (d : Dev) (k : Nat) (f : Chord → Chord) : (d.updChord k f).pages = d.pages := rfl
@[simp] theorem updChord_viol (d : Dev) (k : Nat) (f : Chord → Chord) : (d.updChord k f).viol = d.viol := rfl
@[simp] theorem updChord_bus (d : Dev) (k : Nat) (f : Chord → Chord) : (d.updChord k f).bus = d.bus := rfl
@[simp] theorem updChord_boot (d : Dev) (k : Nat) (f : Chord → Chord) : (d.updChord k f).boot = d.boot := rfl
@[simp] theorem updChord_pwr (d : Dev) (k : Nat) (f : Chord → Chord) : (d.updChord k f).pwr = d.pwr := rfl
@[simp] theorem updChord_hull (d : Dev) (k : Nat) (f : Chord → Chord) : (d.updChord k f).hull = d.hull := rfl
@[simp] theorem updChord_locus (d : Dev) (k : Nat) (f : Chord → Chord) : (d.updChord k f).locus = d.locus := rfl
@[simp] theorem updChord_therm (d : Dev) (k : Nat) (f : Chord → Chord) : (d.updChord k f).therm = d.therm := rfl
@[simp] theorem updChord_link (d : Dev) (k : Nat) (f : Chord → Chord) : (d.updChord k f).link = d.link := rfl
@[simp] theorem updChord_lostMap (d : Dev) (k : Nat) (f : Chord → Chord) : (d.updChord k f).lostMap = d.lostMap := rfl
@[simp] theorem updChord_chord (d : Dev) (k : Nat) (f : Chord → Chord) : (d.updChord k f).chord = tupd {} d.chord k f := rfl
@[simp] theorem updChord_cmpStat (d : Dev) (k : Nat) (f : Chord → Chord) : (d.updChord k f).cmpStat = d.cmpStat := rfl
@[simp] theorem updChord_cmpDom (d : Dev) (k : Nat) (f : Chord → Chord) : (d.updChord k f).cmpDom = d.cmpDom := rfl
@[simp] theorem updChord_vcell (d : Dev) (k : Nat) (f : Chord → Chord) : (d.updChord k f).vcell = d.vcell := rfl
@[simp] theorem updChord_vstr (d : Dev) (k : Nat) (f : Chord → Chord) : (d.updChord k f).vstr = d.vstr := rfl
@[simp] theorem updChord_vRun (d : Dev) (k : Nat) (f : Chord → Chord) : (d.updChord k f).vRun = d.vRun := rfl
@[simp] theorem updChord_vBlk (d : Dev) (k : Nat) (f : Chord → Chord) : (d.updChord k f).vBlk = d.vBlk := rfl
@[simp] theorem updChord_vLat (d : Dev) (k : Nat) (f : Chord → Chord) : (d.updChord k f).vLat = d.vLat := rfl
@[simp] theorem updChord_lat (d : Dev) (k : Nat) (f : Chord → Chord) : (d.updChord k f).lat = d.lat := rfl
@[simp] theorem updChord_model (d : Dev) (k : Nat) (f : Chord → Chord) : (d.updChord k f).model = d.model := rfl
@[simp] theorem updChord_diag (d : Dev) (k : Nat) (f : Chord → Chord) : (d.updChord k f).diag = d.diag := rfl
@[simp] theorem updChord_prism (d : Dev) (k : Nat) (f : Chord → Chord) : (d.updChord k f).prism = d.prism := rfl
@[simp] theorem updChord_phasor (d : Dev) (k : Nat) (f : Chord → Chord) : (d.updChord k f).phasor = d.phasor := rfl
@[simp] theorem updChord_wave (d : Dev) (k : Nat) (f : Chord → Chord) : (d.updChord k f).wave = d.wave := rfl
@[simp] theorem updChord_cap (d : Dev) (k : Nat) (f : Chord → Chord) : (d.updChord k f).cap = d.cap := rfl
@[simp] theorem updChord_port (d : Dev) (k : Nat) (f : Chord → Chord) : (d.updChord k f).port = d.port := rfl
@[simp] theorem updChord_hrWr (d : Dev) (k : Nat) (f : Chord → Chord) : (d.updChord k f).hrWr = d.hrWr := rfl
@[simp] theorem updChord_hrLost (d : Dev) (k : Nat) (f : Chord → Chord) : (d.updChord k f).hrLost = d.hrLost := rfl
@[simp] theorem updChord_nvm (d : Dev) (k : Nat) (f : Chord → Chord) : (d.updChord k f).nvm = d.nvm := rfl
@[simp] theorem updChord_pre (d : Dev) (k : Nat) (f : Chord → Chord) : (d.updChord k f).pre = d.pre := rfl
@[simp] theorem updChord_free (d : Dev) (k : Nat) (f : Chord → Chord) : (d.updChord k f).free = d.free := rfl
@[simp] theorem updCell_regs (d : Dev) (k : Nat) (f : VCell → VCell) : (d.updCell k f).regs = d.regs := rfl
@[simp] theorem updCell_pages (d : Dev) (k : Nat) (f : VCell → VCell) : (d.updCell k f).pages = d.pages := rfl
@[simp] theorem updCell_viol (d : Dev) (k : Nat) (f : VCell → VCell) : (d.updCell k f).viol = d.viol := rfl
@[simp] theorem updCell_bus (d : Dev) (k : Nat) (f : VCell → VCell) : (d.updCell k f).bus = d.bus := rfl
@[simp] theorem updCell_boot (d : Dev) (k : Nat) (f : VCell → VCell) : (d.updCell k f).boot = d.boot := rfl
@[simp] theorem updCell_pwr (d : Dev) (k : Nat) (f : VCell → VCell) : (d.updCell k f).pwr = d.pwr := rfl
@[simp] theorem updCell_hull (d : Dev) (k : Nat) (f : VCell → VCell) : (d.updCell k f).hull = d.hull := rfl
@[simp] theorem updCell_locus (d : Dev) (k : Nat) (f : VCell → VCell) : (d.updCell k f).locus = d.locus := rfl
@[simp] theorem updCell_therm (d : Dev) (k : Nat) (f : VCell → VCell) : (d.updCell k f).therm = d.therm := rfl
@[simp] theorem updCell_link (d : Dev) (k : Nat) (f : VCell → VCell) : (d.updCell k f).link = d.link := rfl
@[simp] theorem updCell_lostMap (d : Dev) (k : Nat) (f : VCell → VCell) : (d.updCell k f).lostMap = d.lostMap := rfl
@[simp] theorem updCell_chord (d : Dev) (k : Nat) (f : VCell → VCell) : (d.updCell k f).chord = d.chord := rfl
@[simp] theorem updCell_cmpStat (d : Dev) (k : Nat) (f : VCell → VCell) : (d.updCell k f).cmpStat = d.cmpStat := rfl
@[simp] theorem updCell_cmpDom (d : Dev) (k : Nat) (f : VCell → VCell) : (d.updCell k f).cmpDom = d.cmpDom := rfl
@[simp] theorem updCell_vcell (d : Dev) (k : Nat) (f : VCell → VCell) : (d.updCell k f).vcell = tupd {} d.vcell k f := rfl
@[simp] theorem updCell_vstr (d : Dev) (k : Nat) (f : VCell → VCell) : (d.updCell k f).vstr = d.vstr := rfl
@[simp] theorem updCell_vRun (d : Dev) (k : Nat) (f : VCell → VCell) : (d.updCell k f).vRun = d.vRun := rfl
@[simp] theorem updCell_vBlk (d : Dev) (k : Nat) (f : VCell → VCell) : (d.updCell k f).vBlk = d.vBlk := rfl
@[simp] theorem updCell_vLat (d : Dev) (k : Nat) (f : VCell → VCell) : (d.updCell k f).vLat = d.vLat := rfl
@[simp] theorem updCell_lat (d : Dev) (k : Nat) (f : VCell → VCell) : (d.updCell k f).lat = d.lat := rfl
@[simp] theorem updCell_model (d : Dev) (k : Nat) (f : VCell → VCell) : (d.updCell k f).model = d.model := rfl
@[simp] theorem updCell_diag (d : Dev) (k : Nat) (f : VCell → VCell) : (d.updCell k f).diag = d.diag := rfl
@[simp] theorem updCell_prism (d : Dev) (k : Nat) (f : VCell → VCell) : (d.updCell k f).prism = d.prism := rfl
@[simp] theorem updCell_phasor (d : Dev) (k : Nat) (f : VCell → VCell) : (d.updCell k f).phasor = d.phasor := rfl
@[simp] theorem updCell_wave (d : Dev) (k : Nat) (f : VCell → VCell) : (d.updCell k f).wave = d.wave := rfl
@[simp] theorem updCell_cap (d : Dev) (k : Nat) (f : VCell → VCell) : (d.updCell k f).cap = d.cap := rfl
@[simp] theorem updCell_port (d : Dev) (k : Nat) (f : VCell → VCell) : (d.updCell k f).port = d.port := rfl
@[simp] theorem updCell_hrWr (d : Dev) (k : Nat) (f : VCell → VCell) : (d.updCell k f).hrWr = d.hrWr := rfl
@[simp] theorem updCell_hrLost (d : Dev) (k : Nat) (f : VCell → VCell) : (d.updCell k f).hrLost = d.hrLost := rfl
@[simp] theorem updCell_nvm (d : Dev) (k : Nat) (f : VCell → VCell) : (d.updCell k f).nvm = d.nvm := rfl
@[simp] theorem updCell_pre (d : Dev) (k : Nat) (f : VCell → VCell) : (d.updCell k f).pre = d.pre := rfl
@[simp] theorem updCell_free (d : Dev) (k : Nat) (f : VCell → VCell) : (d.updCell k f).free = d.free := rfl
@[simp] theorem updStr_regs (d : Dev) (k : Nat) (f : VStr → VStr) : (d.updStr k f).regs = d.regs := rfl
@[simp] theorem updStr_pages (d : Dev) (k : Nat) (f : VStr → VStr) : (d.updStr k f).pages = d.pages := rfl
@[simp] theorem updStr_viol (d : Dev) (k : Nat) (f : VStr → VStr) : (d.updStr k f).viol = d.viol := rfl
@[simp] theorem updStr_bus (d : Dev) (k : Nat) (f : VStr → VStr) : (d.updStr k f).bus = d.bus := rfl
@[simp] theorem updStr_boot (d : Dev) (k : Nat) (f : VStr → VStr) : (d.updStr k f).boot = d.boot := rfl
@[simp] theorem updStr_pwr (d : Dev) (k : Nat) (f : VStr → VStr) : (d.updStr k f).pwr = d.pwr := rfl
@[simp] theorem updStr_hull (d : Dev) (k : Nat) (f : VStr → VStr) : (d.updStr k f).hull = d.hull := rfl
@[simp] theorem updStr_locus (d : Dev) (k : Nat) (f : VStr → VStr) : (d.updStr k f).locus = d.locus := rfl
@[simp] theorem updStr_therm (d : Dev) (k : Nat) (f : VStr → VStr) : (d.updStr k f).therm = d.therm := rfl
@[simp] theorem updStr_link (d : Dev) (k : Nat) (f : VStr → VStr) : (d.updStr k f).link = d.link := rfl
@[simp] theorem updStr_lostMap (d : Dev) (k : Nat) (f : VStr → VStr) : (d.updStr k f).lostMap = d.lostMap := rfl
@[simp] theorem updStr_chord (d : Dev) (k : Nat) (f : VStr → VStr) : (d.updStr k f).chord = d.chord := rfl
@[simp] theorem updStr_cmpStat (d : Dev) (k : Nat) (f : VStr → VStr) : (d.updStr k f).cmpStat = d.cmpStat := rfl
@[simp] theorem updStr_cmpDom (d : Dev) (k : Nat) (f : VStr → VStr) : (d.updStr k f).cmpDom = d.cmpDom := rfl
@[simp] theorem updStr_vcell (d : Dev) (k : Nat) (f : VStr → VStr) : (d.updStr k f).vcell = d.vcell := rfl
@[simp] theorem updStr_vstr (d : Dev) (k : Nat) (f : VStr → VStr) : (d.updStr k f).vstr = tupd {} d.vstr k f := rfl
@[simp] theorem updStr_vRun (d : Dev) (k : Nat) (f : VStr → VStr) : (d.updStr k f).vRun = d.vRun := rfl
@[simp] theorem updStr_vBlk (d : Dev) (k : Nat) (f : VStr → VStr) : (d.updStr k f).vBlk = d.vBlk := rfl
@[simp] theorem updStr_vLat (d : Dev) (k : Nat) (f : VStr → VStr) : (d.updStr k f).vLat = d.vLat := rfl
@[simp] theorem updStr_lat (d : Dev) (k : Nat) (f : VStr → VStr) : (d.updStr k f).lat = d.lat := rfl
@[simp] theorem updStr_model (d : Dev) (k : Nat) (f : VStr → VStr) : (d.updStr k f).model = d.model := rfl
@[simp] theorem updStr_diag (d : Dev) (k : Nat) (f : VStr → VStr) : (d.updStr k f).diag = d.diag := rfl
@[simp] theorem updStr_prism (d : Dev) (k : Nat) (f : VStr → VStr) : (d.updStr k f).prism = d.prism := rfl
@[simp] theorem updStr_phasor (d : Dev) (k : Nat) (f : VStr → VStr) : (d.updStr k f).phasor = d.phasor := rfl
@[simp] theorem updStr_wave (d : Dev) (k : Nat) (f : VStr → VStr) : (d.updStr k f).wave = d.wave := rfl
@[simp] theorem updStr_cap (d : Dev) (k : Nat) (f : VStr → VStr) : (d.updStr k f).cap = d.cap := rfl
@[simp] theorem updStr_port (d : Dev) (k : Nat) (f : VStr → VStr) : (d.updStr k f).port = d.port := rfl
@[simp] theorem updStr_hrWr (d : Dev) (k : Nat) (f : VStr → VStr) : (d.updStr k f).hrWr = d.hrWr := rfl
@[simp] theorem updStr_hrLost (d : Dev) (k : Nat) (f : VStr → VStr) : (d.updStr k f).hrLost = d.hrLost := rfl
@[simp] theorem updStr_nvm (d : Dev) (k : Nat) (f : VStr → VStr) : (d.updStr k f).nvm = d.nvm := rfl
@[simp] theorem updStr_pre (d : Dev) (k : Nat) (f : VStr → VStr) : (d.updStr k f).pre = d.pre := rfl
@[simp] theorem updStr_free (d : Dev) (k : Nat) (f : VStr → VStr) : (d.updStr k f).free = d.free := rfl
@[simp] theorem updPort_regs (d : Dev) (k : Nat) (f : Port → Port) : (d.updPort k f).regs = d.regs := rfl
@[simp] theorem updPort_pages (d : Dev) (k : Nat) (f : Port → Port) : (d.updPort k f).pages = d.pages := rfl
@[simp] theorem updPort_viol (d : Dev) (k : Nat) (f : Port → Port) : (d.updPort k f).viol = d.viol := rfl
@[simp] theorem updPort_bus (d : Dev) (k : Nat) (f : Port → Port) : (d.updPort k f).bus = d.bus := rfl
@[simp] theorem updPort_boot (d : Dev) (k : Nat) (f : Port → Port) : (d.updPort k f).boot = d.boot := rfl
@[simp] theorem updPort_pwr (d : Dev) (k : Nat) (f : Port → Port) : (d.updPort k f).pwr = d.pwr := rfl
@[simp] theorem updPort_hull (d : Dev) (k : Nat) (f : Port → Port) : (d.updPort k f).hull = d.hull := rfl
@[simp] theorem updPort_locus (d : Dev) (k : Nat) (f : Port → Port) : (d.updPort k f).locus = d.locus := rfl
@[simp] theorem updPort_therm (d : Dev) (k : Nat) (f : Port → Port) : (d.updPort k f).therm = d.therm := rfl
@[simp] theorem updPort_link (d : Dev) (k : Nat) (f : Port → Port) : (d.updPort k f).link = d.link := rfl
@[simp] theorem updPort_lostMap (d : Dev) (k : Nat) (f : Port → Port) : (d.updPort k f).lostMap = d.lostMap := rfl
@[simp] theorem updPort_chord (d : Dev) (k : Nat) (f : Port → Port) : (d.updPort k f).chord = d.chord := rfl
@[simp] theorem updPort_cmpStat (d : Dev) (k : Nat) (f : Port → Port) : (d.updPort k f).cmpStat = d.cmpStat := rfl
@[simp] theorem updPort_cmpDom (d : Dev) (k : Nat) (f : Port → Port) : (d.updPort k f).cmpDom = d.cmpDom := rfl
@[simp] theorem updPort_vcell (d : Dev) (k : Nat) (f : Port → Port) : (d.updPort k f).vcell = d.vcell := rfl
@[simp] theorem updPort_vstr (d : Dev) (k : Nat) (f : Port → Port) : (d.updPort k f).vstr = d.vstr := rfl
@[simp] theorem updPort_vRun (d : Dev) (k : Nat) (f : Port → Port) : (d.updPort k f).vRun = d.vRun := rfl
@[simp] theorem updPort_vBlk (d : Dev) (k : Nat) (f : Port → Port) : (d.updPort k f).vBlk = d.vBlk := rfl
@[simp] theorem updPort_vLat (d : Dev) (k : Nat) (f : Port → Port) : (d.updPort k f).vLat = d.vLat := rfl
@[simp] theorem updPort_lat (d : Dev) (k : Nat) (f : Port → Port) : (d.updPort k f).lat = d.lat := rfl
@[simp] theorem updPort_model (d : Dev) (k : Nat) (f : Port → Port) : (d.updPort k f).model = d.model := rfl
@[simp] theorem updPort_diag (d : Dev) (k : Nat) (f : Port → Port) : (d.updPort k f).diag = d.diag := rfl
@[simp] theorem updPort_prism (d : Dev) (k : Nat) (f : Port → Port) : (d.updPort k f).prism = d.prism := rfl
@[simp] theorem updPort_phasor (d : Dev) (k : Nat) (f : Port → Port) : (d.updPort k f).phasor = d.phasor := rfl
@[simp] theorem updPort_wave (d : Dev) (k : Nat) (f : Port → Port) : (d.updPort k f).wave = d.wave := rfl
@[simp] theorem updPort_cap (d : Dev) (k : Nat) (f : Port → Port) : (d.updPort k f).cap = d.cap := rfl
@[simp] theorem updPort_port (d : Dev) (k : Nat) (f : Port → Port) : (d.updPort k f).port = tupd {} d.port k f := rfl
@[simp] theorem updPort_hrWr (d : Dev) (k : Nat) (f : Port → Port) : (d.updPort k f).hrWr = d.hrWr := rfl
@[simp] theorem updPort_hrLost (d : Dev) (k : Nat) (f : Port → Port) : (d.updPort k f).hrLost = d.hrLost := rfl
@[simp] theorem updPort_nvm (d : Dev) (k : Nat) (f : Port → Port) : (d.updPort k f).nvm = d.nvm := rfl
@[simp] theorem updPort_pre (d : Dev) (k : Nat) (f : Port → Port) : (d.updPort k f).pre = d.pre := rfl
@[simp] theorem updPort_free (d : Dev) (k : Nat) (f : Port → Port) : (d.updPort k f).free = d.free := rfl
@[simp] theorem updCtx_regs (d : Dev) (k : Nat) (f : Ctx → Ctx) : (d.updCtx k f).regs = d.regs := rfl
@[simp] theorem updCtx_pages (d : Dev) (k : Nat) (f : Ctx → Ctx) : (d.updCtx k f).pages = d.pages := rfl
@[simp] theorem updCtx_viol (d : Dev) (k : Nat) (f : Ctx → Ctx) : (d.updCtx k f).viol = d.viol := rfl
@[simp] theorem updCtx_bus (d : Dev) (k : Nat) (f : Ctx → Ctx) : (d.updCtx k f).bus = d.bus := rfl
@[simp] theorem updCtx_boot (d : Dev) (k : Nat) (f : Ctx → Ctx) : (d.updCtx k f).boot = d.boot := rfl
@[simp] theorem updCtx_pwr (d : Dev) (k : Nat) (f : Ctx → Ctx) : (d.updCtx k f).pwr = d.pwr := rfl
@[simp] theorem updCtx_hull (d : Dev) (k : Nat) (f : Ctx → Ctx) : (d.updCtx k f).hull = d.hull := rfl
@[simp] theorem updCtx_locus (d : Dev) (k : Nat) (f : Ctx → Ctx) : (d.updCtx k f).locus = d.locus := rfl
@[simp] theorem updCtx_therm (d : Dev) (k : Nat) (f : Ctx → Ctx) : (d.updCtx k f).therm = d.therm := rfl
@[simp] theorem updCtx_link (d : Dev) (k : Nat) (f : Ctx → Ctx) : (d.updCtx k f).link = d.link := rfl
@[simp] theorem updCtx_lostMap (d : Dev) (k : Nat) (f : Ctx → Ctx) : (d.updCtx k f).lostMap = d.lostMap := rfl
@[simp] theorem updCtx_chord (d : Dev) (k : Nat) (f : Ctx → Ctx) : (d.updCtx k f).chord = d.chord := rfl
@[simp] theorem updCtx_cmpStat (d : Dev) (k : Nat) (f : Ctx → Ctx) : (d.updCtx k f).cmpStat = d.cmpStat := rfl
@[simp] theorem updCtx_cmpDom (d : Dev) (k : Nat) (f : Ctx → Ctx) : (d.updCtx k f).cmpDom = d.cmpDom := rfl
@[simp] theorem updCtx_vcell (d : Dev) (k : Nat) (f : Ctx → Ctx) : (d.updCtx k f).vcell = d.vcell := rfl
@[simp] theorem updCtx_vstr (d : Dev) (k : Nat) (f : Ctx → Ctx) : (d.updCtx k f).vstr = d.vstr := rfl
@[simp] theorem updCtx_vRun (d : Dev) (k : Nat) (f : Ctx → Ctx) : (d.updCtx k f).vRun = d.vRun := rfl
@[simp] theorem updCtx_vBlk (d : Dev) (k : Nat) (f : Ctx → Ctx) : (d.updCtx k f).vBlk = d.vBlk := rfl
@[simp] theorem updCtx_vLat (d : Dev) (k : Nat) (f : Ctx → Ctx) : (d.updCtx k f).vLat = d.vLat := rfl
@[simp] theorem updCtx_lat (d : Dev) (k : Nat) (f : Ctx → Ctx) : (d.updCtx k f).lat = { d.lat with ctx := tupd {} d.lat.ctx k f } := rfl
@[simp] theorem updCtx_model (d : Dev) (k : Nat) (f : Ctx → Ctx) : (d.updCtx k f).model = d.model := rfl
@[simp] theorem updCtx_diag (d : Dev) (k : Nat) (f : Ctx → Ctx) : (d.updCtx k f).diag = d.diag := rfl
@[simp] theorem updCtx_prism (d : Dev) (k : Nat) (f : Ctx → Ctx) : (d.updCtx k f).prism = d.prism := rfl
@[simp] theorem updCtx_phasor (d : Dev) (k : Nat) (f : Ctx → Ctx) : (d.updCtx k f).phasor = d.phasor := rfl
@[simp] theorem updCtx_wave (d : Dev) (k : Nat) (f : Ctx → Ctx) : (d.updCtx k f).wave = d.wave := rfl
@[simp] theorem updCtx_cap (d : Dev) (k : Nat) (f : Ctx → Ctx) : (d.updCtx k f).cap = d.cap := rfl
@[simp] theorem updCtx_port (d : Dev) (k : Nat) (f : Ctx → Ctx) : (d.updCtx k f).port = d.port := rfl
@[simp] theorem updCtx_hrWr (d : Dev) (k : Nat) (f : Ctx → Ctx) : (d.updCtx k f).hrWr = d.hrWr := rfl
@[simp] theorem updCtx_hrLost (d : Dev) (k : Nat) (f : Ctx → Ctx) : (d.updCtx k f).hrLost = d.hrLost := rfl
@[simp] theorem updCtx_nvm (d : Dev) (k : Nat) (f : Ctx → Ctx) : (d.updCtx k f).nvm = d.nvm := rfl
@[simp] theorem updCtx_pre (d : Dev) (k : Nat) (f : Ctx → Ctx) : (d.updCtx k f).pre = d.pre := rfl
@[simp] theorem updCtx_free (d : Dev) (k : Nat) (f : Ctx → Ctx) : (d.updCtx k f).free = d.free := rfl
@[simp] theorem updElem_regs (d : Dev) (k e : Nat) (f : Elem → Elem) : (d.updElem k e f).regs = d.regs := rfl
@[simp] theorem updElem_pages (d : Dev) (k e : Nat) (f : Elem → Elem) : (d.updElem k e f).pages = d.pages := rfl
@[simp] theorem updElem_viol (d : Dev) (k e : Nat) (f : Elem → Elem) : (d.updElem k e f).viol = d.viol := rfl
@[simp] theorem updElem_bus (d : Dev) (k e : Nat) (f : Elem → Elem) : (d.updElem k e f).bus = d.bus := rfl
@[simp] theorem updElem_boot (d : Dev) (k e : Nat) (f : Elem → Elem) : (d.updElem k e f).boot = d.boot := rfl
@[simp] theorem updElem_pwr (d : Dev) (k e : Nat) (f : Elem → Elem) : (d.updElem k e f).pwr = d.pwr := rfl
@[simp] theorem updElem_hull (d : Dev) (k e : Nat) (f : Elem → Elem) : (d.updElem k e f).hull = d.hull := rfl
@[simp] theorem updElem_locus (d : Dev) (k e : Nat) (f : Elem → Elem) : (d.updElem k e f).locus = d.locus := rfl
@[simp] theorem updElem_therm (d : Dev) (k e : Nat) (f : Elem → Elem) : (d.updElem k e f).therm = d.therm := rfl
@[simp] theorem updElem_link (d : Dev) (k e : Nat) (f : Elem → Elem) : (d.updElem k e f).link = d.link := rfl
@[simp] theorem updElem_lostMap (d : Dev) (k e : Nat) (f : Elem → Elem) : (d.updElem k e f).lostMap = d.lostMap := rfl
@[simp] theorem updElem_chord (d : Dev) (k e : Nat) (f : Elem → Elem) : (d.updElem k e f).chord = d.chord := rfl
@[simp] theorem updElem_cmpStat (d : Dev) (k e : Nat) (f : Elem → Elem) : (d.updElem k e f).cmpStat = d.cmpStat := rfl
@[simp] theorem updElem_cmpDom (d : Dev) (k e : Nat) (f : Elem → Elem) : (d.updElem k e f).cmpDom = d.cmpDom := rfl
@[simp] theorem updElem_vcell (d : Dev) (k e : Nat) (f : Elem → Elem) : (d.updElem k e f).vcell = d.vcell := rfl
@[simp] theorem updElem_vstr (d : Dev) (k e : Nat) (f : Elem → Elem) : (d.updElem k e f).vstr = d.vstr := rfl
@[simp] theorem updElem_vRun (d : Dev) (k e : Nat) (f : Elem → Elem) : (d.updElem k e f).vRun = d.vRun := rfl
@[simp] theorem updElem_vBlk (d : Dev) (k e : Nat) (f : Elem → Elem) : (d.updElem k e f).vBlk = d.vBlk := rfl
@[simp] theorem updElem_vLat (d : Dev) (k e : Nat) (f : Elem → Elem) : (d.updElem k e f).vLat = d.vLat := rfl
@[simp] theorem updElem_lat (d : Dev) (k e : Nat) (f : Elem → Elem) : (d.updElem k e f).lat = (d.updCtx k (fun x => { x with el := tupd {} x.el e f })).lat := rfl
@[simp] theorem updElem_model (d : Dev) (k e : Nat) (f : Elem → Elem) : (d.updElem k e f).model = d.model := rfl
@[simp] theorem updElem_diag (d : Dev) (k e : Nat) (f : Elem → Elem) : (d.updElem k e f).diag = d.diag := rfl
@[simp] theorem updElem_prism (d : Dev) (k e : Nat) (f : Elem → Elem) : (d.updElem k e f).prism = d.prism := rfl
@[simp] theorem updElem_phasor (d : Dev) (k e : Nat) (f : Elem → Elem) : (d.updElem k e f).phasor = d.phasor := rfl
@[simp] theorem updElem_wave (d : Dev) (k e : Nat) (f : Elem → Elem) : (d.updElem k e f).wave = d.wave := rfl
@[simp] theorem updElem_cap (d : Dev) (k e : Nat) (f : Elem → Elem) : (d.updElem k e f).cap = d.cap := rfl
@[simp] theorem updElem_port (d : Dev) (k e : Nat) (f : Elem → Elem) : (d.updElem k e f).port = d.port := rfl
@[simp] theorem updElem_hrWr (d : Dev) (k e : Nat) (f : Elem → Elem) : (d.updElem k e f).hrWr = d.hrWr := rfl
@[simp] theorem updElem_hrLost (d : Dev) (k e : Nat) (f : Elem → Elem) : (d.updElem k e f).hrLost = d.hrLost := rfl
@[simp] theorem updElem_nvm (d : Dev) (k e : Nat) (f : Elem → Elem) : (d.updElem k e f).nvm = d.nvm := rfl
@[simp] theorem updElem_pre (d : Dev) (k e : Nat) (f : Elem → Elem) : (d.updElem k e f).pre = d.pre := rfl
@[simp] theorem updElem_free (d : Dev) (k e : Nat) (f : Elem → Elem) : (d.updElem k e f).free = d.free := rfl
@[simp] theorem updModel_regs (d : Dev) (k : Nat) (f : MCell → MCell) : (d.updModel k f).regs = d.regs := rfl
@[simp] theorem updModel_pages (d : Dev) (k : Nat) (f : MCell → MCell) : (d.updModel k f).pages = d.pages := rfl
@[simp] theorem updModel_viol (d : Dev) (k : Nat) (f : MCell → MCell) : (d.updModel k f).viol = d.viol := rfl
@[simp] theorem updModel_bus (d : Dev) (k : Nat) (f : MCell → MCell) : (d.updModel k f).bus = d.bus := rfl
@[simp] theorem updModel_boot (d : Dev) (k : Nat) (f : MCell → MCell) : (d.updModel k f).boot = d.boot := rfl
@[simp] theorem updModel_pwr (d : Dev) (k : Nat) (f : MCell → MCell) : (d.updModel k f).pwr = d.pwr := rfl
@[simp] theorem updModel_hull (d : Dev) (k : Nat) (f : MCell → MCell) : (d.updModel k f).hull = d.hull := rfl
@[simp] theorem updModel_locus (d : Dev) (k : Nat) (f : MCell → MCell) : (d.updModel k f).locus = d.locus := rfl
@[simp] theorem updModel_therm (d : Dev) (k : Nat) (f : MCell → MCell) : (d.updModel k f).therm = d.therm := rfl
@[simp] theorem updModel_link (d : Dev) (k : Nat) (f : MCell → MCell) : (d.updModel k f).link = d.link := rfl
@[simp] theorem updModel_lostMap (d : Dev) (k : Nat) (f : MCell → MCell) : (d.updModel k f).lostMap = d.lostMap := rfl
@[simp] theorem updModel_chord (d : Dev) (k : Nat) (f : MCell → MCell) : (d.updModel k f).chord = d.chord := rfl
@[simp] theorem updModel_cmpStat (d : Dev) (k : Nat) (f : MCell → MCell) : (d.updModel k f).cmpStat = d.cmpStat := rfl
@[simp] theorem updModel_cmpDom (d : Dev) (k : Nat) (f : MCell → MCell) : (d.updModel k f).cmpDom = d.cmpDom := rfl
@[simp] theorem updModel_vcell (d : Dev) (k : Nat) (f : MCell → MCell) : (d.updModel k f).vcell = d.vcell := rfl
@[simp] theorem updModel_vstr (d : Dev) (k : Nat) (f : MCell → MCell) : (d.updModel k f).vstr = d.vstr := rfl
@[simp] theorem updModel_vRun (d : Dev) (k : Nat) (f : MCell → MCell) : (d.updModel k f).vRun = d.vRun := rfl
@[simp] theorem updModel_vBlk (d : Dev) (k : Nat) (f : MCell → MCell) : (d.updModel k f).vBlk = d.vBlk := rfl
@[simp] theorem updModel_vLat (d : Dev) (k : Nat) (f : MCell → MCell) : (d.updModel k f).vLat = d.vLat := rfl
@[simp] theorem updModel_lat (d : Dev) (k : Nat) (f : MCell → MCell) : (d.updModel k f).lat = d.lat := rfl
@[simp] theorem updModel_model (d : Dev) (k : Nat) (f : MCell → MCell) : (d.updModel k f).model = { d.model with cell := tupd {} d.model.cell k f } := rfl
@[simp] theorem updModel_diag (d : Dev) (k : Nat) (f : MCell → MCell) : (d.updModel k f).diag = d.diag := rfl
@[simp] theorem updModel_prism (d : Dev) (k : Nat) (f : MCell → MCell) : (d.updModel k f).prism = d.prism := rfl
@[simp] theorem updModel_phasor (d : Dev) (k : Nat) (f : MCell → MCell) : (d.updModel k f).phasor = d.phasor := rfl
@[simp] theorem updModel_wave (d : Dev) (k : Nat) (f : MCell → MCell) : (d.updModel k f).wave = d.wave := rfl
@[simp] theorem updModel_cap (d : Dev) (k : Nat) (f : MCell → MCell) : (d.updModel k f).cap = d.cap := rfl
@[simp] theorem updModel_port (d : Dev) (k : Nat) (f : MCell → MCell) : (d.updModel k f).port = d.port := rfl
@[simp] theorem updModel_hrWr (d : Dev) (k : Nat) (f : MCell → MCell) : (d.updModel k f).hrWr = d.hrWr := rfl
@[simp] theorem updModel_hrLost (d : Dev) (k : Nat) (f : MCell → MCell) : (d.updModel k f).hrLost = d.hrLost := rfl
@[simp] theorem updModel_nvm (d : Dev) (k : Nat) (f : MCell → MCell) : (d.updModel k f).nvm = d.nvm := rfl
@[simp] theorem updModel_pre (d : Dev) (k : Nat) (f : MCell → MCell) : (d.updModel k f).pre = d.pre := rfl
@[simp] theorem updModel_free (d : Dev) (k : Nat) (f : MCell → MCell) : (d.updModel k f).free = d.free := rfl
@[simp] theorem updChan_regs (d : Dev) (k : Nat) (f : Chan → Chan) : (d.updChan k f).regs = d.regs := rfl
@[simp] theorem updChan_pages (d : Dev) (k : Nat) (f : Chan → Chan) : (d.updChan k f).pages = d.pages := rfl
@[simp] theorem updChan_viol (d : Dev) (k : Nat) (f : Chan → Chan) : (d.updChan k f).viol = d.viol := rfl
@[simp] theorem updChan_bus (d : Dev) (k : Nat) (f : Chan → Chan) : (d.updChan k f).bus = d.bus := rfl
@[simp] theorem updChan_boot (d : Dev) (k : Nat) (f : Chan → Chan) : (d.updChan k f).boot = d.boot := rfl
@[simp] theorem updChan_pwr (d : Dev) (k : Nat) (f : Chan → Chan) : (d.updChan k f).pwr = d.pwr := rfl
@[simp] theorem updChan_hull (d : Dev) (k : Nat) (f : Chan → Chan) : (d.updChan k f).hull = d.hull := rfl
@[simp] theorem updChan_locus (d : Dev) (k : Nat) (f : Chan → Chan) : (d.updChan k f).locus = d.locus := rfl
@[simp] theorem updChan_therm (d : Dev) (k : Nat) (f : Chan → Chan) : (d.updChan k f).therm = d.therm := rfl
@[simp] theorem updChan_link (d : Dev) (k : Nat) (f : Chan → Chan) : (d.updChan k f).link = d.link := rfl
@[simp] theorem updChan_lostMap (d : Dev) (k : Nat) (f : Chan → Chan) : (d.updChan k f).lostMap = d.lostMap := rfl
@[simp] theorem updChan_chord (d : Dev) (k : Nat) (f : Chan → Chan) : (d.updChan k f).chord = d.chord := rfl
@[simp] theorem updChan_cmpStat (d : Dev) (k : Nat) (f : Chan → Chan) : (d.updChan k f).cmpStat = d.cmpStat := rfl
@[simp] theorem updChan_cmpDom (d : Dev) (k : Nat) (f : Chan → Chan) : (d.updChan k f).cmpDom = d.cmpDom := rfl
@[simp] theorem updChan_vcell (d : Dev) (k : Nat) (f : Chan → Chan) : (d.updChan k f).vcell = d.vcell := rfl
@[simp] theorem updChan_vstr (d : Dev) (k : Nat) (f : Chan → Chan) : (d.updChan k f).vstr = d.vstr := rfl
@[simp] theorem updChan_vRun (d : Dev) (k : Nat) (f : Chan → Chan) : (d.updChan k f).vRun = d.vRun := rfl
@[simp] theorem updChan_vBlk (d : Dev) (k : Nat) (f : Chan → Chan) : (d.updChan k f).vBlk = d.vBlk := rfl
@[simp] theorem updChan_vLat (d : Dev) (k : Nat) (f : Chan → Chan) : (d.updChan k f).vLat = d.vLat := rfl
@[simp] theorem updChan_lat (d : Dev) (k : Nat) (f : Chan → Chan) : (d.updChan k f).lat = d.lat := rfl
@[simp] theorem updChan_model (d : Dev) (k : Nat) (f : Chan → Chan) : (d.updChan k f).model = d.model := rfl
@[simp] theorem updChan_diag (d : Dev) (k : Nat) (f : Chan → Chan) : (d.updChan k f).diag = d.diag := rfl
@[simp] theorem updChan_prism (d : Dev) (k : Nat) (f : Chan → Chan) : (d.updChan k f).prism = { d.prism with chan := tupd {} d.prism.chan k f } := rfl
@[simp] theorem updChan_phasor (d : Dev) (k : Nat) (f : Chan → Chan) : (d.updChan k f).phasor = d.phasor := rfl
@[simp] theorem updChan_wave (d : Dev) (k : Nat) (f : Chan → Chan) : (d.updChan k f).wave = d.wave := rfl
@[simp] theorem updChan_cap (d : Dev) (k : Nat) (f : Chan → Chan) : (d.updChan k f).cap = d.cap := rfl
@[simp] theorem updChan_port (d : Dev) (k : Nat) (f : Chan → Chan) : (d.updChan k f).port = d.port := rfl
@[simp] theorem updChan_hrWr (d : Dev) (k : Nat) (f : Chan → Chan) : (d.updChan k f).hrWr = d.hrWr := rfl
@[simp] theorem updChan_hrLost (d : Dev) (k : Nat) (f : Chan → Chan) : (d.updChan k f).hrLost = d.hrLost := rfl
@[simp] theorem updChan_nvm (d : Dev) (k : Nat) (f : Chan → Chan) : (d.updChan k f).nvm = d.nvm := rfl
@[simp] theorem updChan_pre (d : Dev) (k : Nat) (f : Chan → Chan) : (d.updChan k f).pre = d.pre := rfl
@[simp] theorem updChan_free (d : Dev) (k : Nat) (f : Chan → Chan) : (d.updChan k f).free = d.free := rfl
@[simp] theorem updSensor_regs (d : Dev) (k : Nat) (f : Sensor → Sensor) : (d.updSensor k f).regs = d.regs := rfl
@[simp] theorem updSensor_pages (d : Dev) (k : Nat) (f : Sensor → Sensor) : (d.updSensor k f).pages = d.pages := rfl
@[simp] theorem updSensor_viol (d : Dev) (k : Nat) (f : Sensor → Sensor) : (d.updSensor k f).viol = d.viol := rfl
@[simp] theorem updSensor_bus (d : Dev) (k : Nat) (f : Sensor → Sensor) : (d.updSensor k f).bus = d.bus := rfl
@[simp] theorem updSensor_boot (d : Dev) (k : Nat) (f : Sensor → Sensor) : (d.updSensor k f).boot = d.boot := rfl
@[simp] theorem updSensor_pwr (d : Dev) (k : Nat) (f : Sensor → Sensor) : (d.updSensor k f).pwr = d.pwr := rfl
@[simp] theorem updSensor_hull (d : Dev) (k : Nat) (f : Sensor → Sensor) : (d.updSensor k f).hull = d.hull := rfl
@[simp] theorem updSensor_locus (d : Dev) (k : Nat) (f : Sensor → Sensor) : (d.updSensor k f).locus = d.locus := rfl
@[simp] theorem updSensor_therm (d : Dev) (k : Nat) (f : Sensor → Sensor) : (d.updSensor k f).therm = { d.therm with sens := tupd {} d.therm.sens k f } := rfl
@[simp] theorem updSensor_link (d : Dev) (k : Nat) (f : Sensor → Sensor) : (d.updSensor k f).link = d.link := rfl
@[simp] theorem updSensor_lostMap (d : Dev) (k : Nat) (f : Sensor → Sensor) : (d.updSensor k f).lostMap = d.lostMap := rfl
@[simp] theorem updSensor_chord (d : Dev) (k : Nat) (f : Sensor → Sensor) : (d.updSensor k f).chord = d.chord := rfl
@[simp] theorem updSensor_cmpStat (d : Dev) (k : Nat) (f : Sensor → Sensor) : (d.updSensor k f).cmpStat = d.cmpStat := rfl
@[simp] theorem updSensor_cmpDom (d : Dev) (k : Nat) (f : Sensor → Sensor) : (d.updSensor k f).cmpDom = d.cmpDom := rfl
@[simp] theorem updSensor_vcell (d : Dev) (k : Nat) (f : Sensor → Sensor) : (d.updSensor k f).vcell = d.vcell := rfl
@[simp] theorem updSensor_vstr (d : Dev) (k : Nat) (f : Sensor → Sensor) : (d.updSensor k f).vstr = d.vstr := rfl
@[simp] theorem updSensor_vRun (d : Dev) (k : Nat) (f : Sensor → Sensor) : (d.updSensor k f).vRun = d.vRun := rfl
@[simp] theorem updSensor_vBlk (d : Dev) (k : Nat) (f : Sensor → Sensor) : (d.updSensor k f).vBlk = d.vBlk := rfl
@[simp] theorem updSensor_vLat (d : Dev) (k : Nat) (f : Sensor → Sensor) : (d.updSensor k f).vLat = d.vLat := rfl
@[simp] theorem updSensor_lat (d : Dev) (k : Nat) (f : Sensor → Sensor) : (d.updSensor k f).lat = d.lat := rfl
@[simp] theorem updSensor_model (d : Dev) (k : Nat) (f : Sensor → Sensor) : (d.updSensor k f).model = d.model := rfl
@[simp] theorem updSensor_diag (d : Dev) (k : Nat) (f : Sensor → Sensor) : (d.updSensor k f).diag = d.diag := rfl
@[simp] theorem updSensor_prism (d : Dev) (k : Nat) (f : Sensor → Sensor) : (d.updSensor k f).prism = d.prism := rfl
@[simp] theorem updSensor_phasor (d : Dev) (k : Nat) (f : Sensor → Sensor) : (d.updSensor k f).phasor = d.phasor := rfl
@[simp] theorem updSensor_wave (d : Dev) (k : Nat) (f : Sensor → Sensor) : (d.updSensor k f).wave = d.wave := rfl
@[simp] theorem updSensor_cap (d : Dev) (k : Nat) (f : Sensor → Sensor) : (d.updSensor k f).cap = d.cap := rfl
@[simp] theorem updSensor_port (d : Dev) (k : Nat) (f : Sensor → Sensor) : (d.updSensor k f).port = d.port := rfl
@[simp] theorem updSensor_hrWr (d : Dev) (k : Nat) (f : Sensor → Sensor) : (d.updSensor k f).hrWr = d.hrWr := rfl
@[simp] theorem updSensor_hrLost (d : Dev) (k : Nat) (f : Sensor → Sensor) : (d.updSensor k f).hrLost = d.hrLost := rfl
@[simp] theorem updSensor_nvm (d : Dev) (k : Nat) (f : Sensor → Sensor) : (d.updSensor k f).nvm = d.nvm := rfl
@[simp] theorem updSensor_pre (d : Dev) (k : Nat) (f : Sensor → Sensor) : (d.updSensor k f).pre = d.pre := rfl
@[simp] theorem updSensor_free (d : Dev) (k : Nat) (f : Sensor → Sensor) : (d.updSensor k f).free = d.free := rfl
@[simp] theorem updSlot_regs (d : Dev) (k : Nat) (f : Slot → Slot) : (d.updSlot k f).regs = d.regs := rfl
@[simp] theorem updSlot_pages (d : Dev) (k : Nat) (f : Slot → Slot) : (d.updSlot k f).pages = d.pages := rfl
@[simp] theorem updSlot_viol (d : Dev) (k : Nat) (f : Slot → Slot) : (d.updSlot k f).viol = d.viol := rfl
@[simp] theorem updSlot_bus (d : Dev) (k : Nat) (f : Slot → Slot) : (d.updSlot k f).bus = { d.bus with slots := tupd none d.bus.slots k (fun o => o.map f) } := rfl
@[simp] theorem updSlot_boot (d : Dev) (k : Nat) (f : Slot → Slot) : (d.updSlot k f).boot = d.boot := rfl
@[simp] theorem updSlot_pwr (d : Dev) (k : Nat) (f : Slot → Slot) : (d.updSlot k f).pwr = d.pwr := rfl
@[simp] theorem updSlot_hull (d : Dev) (k : Nat) (f : Slot → Slot) : (d.updSlot k f).hull = d.hull := rfl
@[simp] theorem updSlot_locus (d : Dev) (k : Nat) (f : Slot → Slot) : (d.updSlot k f).locus = d.locus := rfl
@[simp] theorem updSlot_therm (d : Dev) (k : Nat) (f : Slot → Slot) : (d.updSlot k f).therm = d.therm := rfl
@[simp] theorem updSlot_link (d : Dev) (k : Nat) (f : Slot → Slot) : (d.updSlot k f).link = d.link := rfl
@[simp] theorem updSlot_lostMap (d : Dev) (k : Nat) (f : Slot → Slot) : (d.updSlot k f).lostMap = d.lostMap := rfl
@[simp] theorem updSlot_chord (d : Dev) (k : Nat) (f : Slot → Slot) : (d.updSlot k f).chord = d.chord := rfl
@[simp] theorem updSlot_cmpStat (d : Dev) (k : Nat) (f : Slot → Slot) : (d.updSlot k f).cmpStat = d.cmpStat := rfl
@[simp] theorem updSlot_cmpDom (d : Dev) (k : Nat) (f : Slot → Slot) : (d.updSlot k f).cmpDom = d.cmpDom := rfl
@[simp] theorem updSlot_vcell (d : Dev) (k : Nat) (f : Slot → Slot) : (d.updSlot k f).vcell = d.vcell := rfl
@[simp] theorem updSlot_vstr (d : Dev) (k : Nat) (f : Slot → Slot) : (d.updSlot k f).vstr = d.vstr := rfl
@[simp] theorem updSlot_vRun (d : Dev) (k : Nat) (f : Slot → Slot) : (d.updSlot k f).vRun = d.vRun := rfl
@[simp] theorem updSlot_vBlk (d : Dev) (k : Nat) (f : Slot → Slot) : (d.updSlot k f).vBlk = d.vBlk := rfl
@[simp] theorem updSlot_vLat (d : Dev) (k : Nat) (f : Slot → Slot) : (d.updSlot k f).vLat = d.vLat := rfl
@[simp] theorem updSlot_lat (d : Dev) (k : Nat) (f : Slot → Slot) : (d.updSlot k f).lat = d.lat := rfl
@[simp] theorem updSlot_model (d : Dev) (k : Nat) (f : Slot → Slot) : (d.updSlot k f).model = d.model := rfl
@[simp] theorem updSlot_diag (d : Dev) (k : Nat) (f : Slot → Slot) : (d.updSlot k f).diag = d.diag := rfl
@[simp] theorem updSlot_prism (d : Dev) (k : Nat) (f : Slot → Slot) : (d.updSlot k f).prism = d.prism := rfl
@[simp] theorem updSlot_phasor (d : Dev) (k : Nat) (f : Slot → Slot) : (d.updSlot k f).phasor = d.phasor := rfl
@[simp] theorem updSlot_wave (d : Dev) (k : Nat) (f : Slot → Slot) : (d.updSlot k f).wave = d.wave := rfl
@[simp] theorem updSlot_cap (d : Dev) (k : Nat) (f : Slot → Slot) : (d.updSlot k f).cap = d.cap := rfl
@[simp] theorem updSlot_port (d : Dev) (k : Nat) (f : Slot → Slot) : (d.updSlot k f).port = d.port := rfl
@[simp] theorem updSlot_hrWr (d : Dev) (k : Nat) (f : Slot → Slot) : (d.updSlot k f).hrWr = d.hrWr := rfl
@[simp] theorem updSlot_hrLost (d : Dev) (k : Nat) (f : Slot → Slot) : (d.updSlot k f).hrLost = d.hrLost := rfl
@[simp] theorem updSlot_nvm (d : Dev) (k : Nat) (f : Slot → Slot) : (d.updSlot k f).nvm = d.nvm := rfl
@[simp] theorem updSlot_pre (d : Dev) (k : Nat) (f : Slot → Slot) : (d.updSlot k f).pre = d.pre := rfl
@[simp] theorem updSlot_free (d : Dev) (k : Nat) (f : Slot → Slot) : (d.updSlot k f).free = d.free := rfl
@[simp] theorem wr_regs (d : Dev) (p o v : Nat) : (d.wr p o v).regs = tset (w32 (rstAt (p * 4096 + o))) d.regs (p * 4096 + o) (w32 v) := rfl
@[simp] theorem wr_pages (d : Dev) (p o v : Nat) : (d.wr p o v).pages = d.pages := rfl
@[simp] theorem wr_viol (d : Dev) (p o v : Nat) : (d.wr p o v).viol = d.viol := rfl
@[simp] theorem wr_bus (d : Dev) (p o v : Nat) : (d.wr p o v).bus = d.bus := rfl
@[simp] theorem wr_boot (d : Dev) (p o v : Nat) : (d.wr p o v).boot = d.boot := rfl
@[simp] theorem wr_pwr (d : Dev) (p o v : Nat) : (d.wr p o v).pwr = d.pwr := rfl
@[simp] theorem wr_hull (d : Dev) (p o v : Nat) : (d.wr p o v).hull = d.hull := rfl
@[simp] theorem wr_locus (d : Dev) (p o v : Nat) : (d.wr p o v).locus = d.locus := rfl
@[simp] theorem wr_therm (d : Dev) (p o v : Nat) : (d.wr p o v).therm = d.therm := rfl
@[simp] theorem wr_link (d : Dev) (p o v : Nat) : (d.wr p o v).link = d.link := rfl
@[simp] theorem wr_lostMap (d : Dev) (p o v : Nat) : (d.wr p o v).lostMap = d.lostMap := rfl
@[simp] theorem wr_chord (d : Dev) (p o v : Nat) : (d.wr p o v).chord = d.chord := rfl
@[simp] theorem wr_cmpStat (d : Dev) (p o v : Nat) : (d.wr p o v).cmpStat = d.cmpStat := rfl
@[simp] theorem wr_cmpDom (d : Dev) (p o v : Nat) : (d.wr p o v).cmpDom = d.cmpDom := rfl
@[simp] theorem wr_vcell (d : Dev) (p o v : Nat) : (d.wr p o v).vcell = d.vcell := rfl
@[simp] theorem wr_vstr (d : Dev) (p o v : Nat) : (d.wr p o v).vstr = d.vstr := rfl
@[simp] theorem wr_vRun (d : Dev) (p o v : Nat) : (d.wr p o v).vRun = d.vRun := rfl
@[simp] theorem wr_vBlk (d : Dev) (p o v : Nat) : (d.wr p o v).vBlk = d.vBlk := rfl
@[simp] theorem wr_vLat (d : Dev) (p o v : Nat) : (d.wr p o v).vLat = d.vLat := rfl
@[simp] theorem wr_lat (d : Dev) (p o v : Nat) : (d.wr p o v).lat = d.lat := rfl
@[simp] theorem wr_model (d : Dev) (p o v : Nat) : (d.wr p o v).model = d.model := rfl
@[simp] theorem wr_diag (d : Dev) (p o v : Nat) : (d.wr p o v).diag = d.diag := rfl
@[simp] theorem wr_prism (d : Dev) (p o v : Nat) : (d.wr p o v).prism = d.prism := rfl
@[simp] theorem wr_phasor (d : Dev) (p o v : Nat) : (d.wr p o v).phasor = d.phasor := rfl
@[simp] theorem wr_wave (d : Dev) (p o v : Nat) : (d.wr p o v).wave = d.wave := rfl
@[simp] theorem wr_cap (d : Dev) (p o v : Nat) : (d.wr p o v).cap = d.cap := rfl
@[simp] theorem wr_port (d : Dev) (p o v : Nat) : (d.wr p o v).port = d.port := rfl
@[simp] theorem wr_hrWr (d : Dev) (p o v : Nat) : (d.wr p o v).hrWr = d.hrWr := rfl
@[simp] theorem wr_hrLost (d : Dev) (p o v : Nat) : (d.wr p o v).hrLost = d.hrLost := rfl
@[simp] theorem wr_nvm (d : Dev) (p o v : Nat) : (d.wr p o v).nvm = d.nvm := rfl
@[simp] theorem wr_pre (d : Dev) (p o v : Nat) : (d.wr p o v).pre = d.pre := rfl
@[simp] theorem wr_free (d : Dev) (p o v : Nat) : (d.wr p o v).free = d.free := rfl

end Dev
end Sys2Proof.Machine
end

