-- ==== Sys2Proof/Laws/Table.lean ====
section
/-! SUPPORT. The sparse tables: every write keeps the canonical form, and a read after a write. -/

namespace Sys2Proof.Machine

theorem twf_nil {α : Type} (z : α) : twf z [] := ⟨List.Pairwise.nil, by simp⟩

/-- A write keeps the keys strictly rising and lists no default. -/
theorem tset_twf {α : Type} [DecidableEq α] (z : α) (m : Tbl α) (k : Nat) (v : α) (h : twf z m) : twf z (tset z m k v) := by
  obtain ⟨hp, hn⟩ := h
  have h1 := hp.filter (fun p => decide (p.1 < k))
  have h2 := hp.filter (fun p => decide (k < p.1))
  refine ⟨?_, ?_⟩
  · unfold tset
    rw [List.append_assoc, List.pairwise_append]
    refine ⟨h1, ?_, ?_⟩
    · rw [List.pairwise_append]
      refine ⟨?_, h2, ?_⟩
      · split <;> simp
      · intro a ha b hb
        split at ha
        · simp at ha
        · simp only [List.mem_singleton] at ha
          simp only [List.mem_filter, decide_eq_true_eq] at hb
          subst ha; exact hb.2
    · intro a ha b hb
      simp only [List.mem_filter, decide_eq_true_eq] at ha
      rw [List.mem_append] at hb
      rcases hb with hb | hb
      · split at hb
        · simp at hb
        · simp only [List.mem_singleton] at hb
          subst hb; exact ha.2
      · simp only [List.mem_filter, decide_eq_true_eq] at hb
        omega
  · intro p hp'
    simp only [tset, List.mem_append, List.mem_filter] at hp'
    rcases hp' with (hp' | hp') | hp'
    · exact hn p hp'.1
    · split at hp'
      · simp at hp'
      · rename_i hv
        simp only [List.mem_singleton] at hp'
        subst hp'; exact hv
    · exact hn p hp'.1

theorem tupd_twf {α : Type} [DecidableEq α] (z : α) (m : Tbl α) (k : Nat) (f : α → α) (h : twf z m) : twf z (tupd z m k f) :=
  tset_twf z m k _ h

theorem tget_append {α : Type} (z : α) (a b : Tbl α) (j : Nat) :
    tget z (a ++ b) j = if a.any (fun p => p.1 == j) then tget z a j else tget z b j := by
  induction a with
  | nil => simp
  | cons x r ih =>
    obtain ⟨k, v⟩ := x
    by_cases hk : k = j
    · simp [tget, hk]
    · simp only [List.cons_append, tget, ih, List.any_cons, Bool.or_eq_true, beq_iff_eq, hk, false_or, if_false]

theorem tget_filter {α : Type} (z : α) (m : Tbl α) (q : Nat → Bool) (j : Nat) (hq : q j = true) :
    tget z (m.filter (fun p => q p.1)) j = tget z m j := by
  induction m with
  | nil => rfl
  | cons x r ih =>
    obtain ⟨k, v⟩ := x
    by_cases hk : k = j
    · subst hk; simp [hq, tget]
    · by_cases hk' : q k = true <;> simp [hk', tget, hk, ih]

theorem tget_none {α : Type} (z : α) (m : Tbl α) (j : Nat) (h : ∀ p ∈ m, p.1 ≠ j) : tget z m j = z := by
  induction m with
  | nil => rfl
  | cons x r ih =>
    obtain ⟨k, v⟩ := x
    simp only [List.mem_cons, forall_eq_or_imp] at h
    simp [tget, h.1, ih h.2]

/-- A read of the entry written. -/
@[simp] theorem tget_tset_same {α : Type} [DecidableEq α] (z : α) (m : Tbl α) (k : Nat) (v : α) : tget z (tset z m k v) k = v := by
  unfold tset
  rw [List.append_assoc, tget_append, if_neg (by simp), tget_append]
  by_cases hv : v = z
  · subst hv
    simp only [if_true, List.any_nil, Bool.false_eq_true, if_false]
    exact tget_none _ _ _ (by simp; intro a b _ h; omega)
  · simp [hv, tget]

/-- A write leaves every other entry alone, whatever an unlisted entry reads as. -/
theorem tget_tset_ne {α : Type} [DecidableEq α] (z y : α) (m : Tbl α) (k j : Nat) (v : α) (h : j ≠ k) :
    tget y (tset z m k v) j = tget y m j := by
  unfold tset
  rcases Nat.lt_or_gt_of_ne h with hj | hj
  · rw [List.append_assoc, tget_append]
    by_cases ha : (m.filter (fun p => decide (p.1 < k))).any (fun p => p.1 == j) = true
    · rw [if_pos ha]; exact tget_filter y m (fun n => decide (n < k)) j (by simpa using hj)
    · rw [if_neg ha]
      have hm : ∀ p ∈ m, p.1 ≠ j := by
        intro p hp he
        apply ha
        simp only [List.any_filter, List.any_eq_true]
        exact ⟨p, hp, by simp [he, hj]⟩
      rw [tget_none y m j hm]
      refine tget_none y _ j ?_
      intro p hp
      rw [List.mem_append] at hp
      rcases hp with hp | hp
      · split at hp
        · simp at hp
        · simp only [List.mem_singleton] at hp
          subst hp; exact fun e => h e.symm
      · exact hm p (List.mem_filter.mp hp).1
  · rw [tget_append, if_neg]
    · exact tget_filter y m (fun n => decide (k < n)) j (by simpa using hj)
    · simp only [List.any_append, List.any_filter, Bool.or_eq_true, List.any_eq_true, not_or, not_exists, not_and]
      refine ⟨fun p _ hp => ?_, fun p hp => ?_⟩
      · simp only [Bool.and_eq_true, decide_eq_true_eq, beq_iff_eq] at hp; omega
      · split at hp
        · simp at hp
        · simp only [List.mem_singleton] at hp
          subst hp; simp; omega

end Sys2Proof.Machine
end

