-- ==== Sys2Proof/Laws/Bus.lean ====
section
/-! SUPPORT. What a register write does, said once: refused, to a common register, or to a register of its own. -/

namespace Sys2Proof.Machine

theorem Row.at?_page {r : Row} {p o : Nat} {h : Hit} (e : r.at? p o = some h) : h.page = p := by
  simp only [Row.at?, Option.ite_none_left_eq_some, Option.ite_none_right_eq_some, Option.some.injEq] at e
  obtain ⟨_, _, rfl⟩ := e
  rfl

/-- A register that is found stands on the page asked for. -/
theorem findReg_page {p o : Nat} {h : Hit} (e : findReg p o = some h) : h.page = p := by
  obtain ⟨r, _, hr⟩ := List.exists_of_findSome?_eq_some e
  exact Row.at?_page hr

namespace Dev

/-- A refused write counts, and does nothing else (R405). -/
theorem busWrite_refused {d : Dev} {now p o w r : Nat} {rq : Req} {whole : Bool}
    (h : d.refusal now rq p o w whole = some r) : d.busWrite now rq p o w whole = d.violate rq (.bar0 p o) r := by
  simp [busWrite, h]

/-- An accepted write of a common register. -/
theorem busWrite_common {d : Dev} {now p o w : Nat} {rq : Req} {whole : Bool}
    (h : d.refusal now rq p o w whole = none) (hc : commonOff o = true) :
    d.busWrite now rq p o w whole = d.commonWrite p o w := by
  simp [busWrite, h, hc]

/-- An accepted write of any other register. -/
theorem busWrite_own {d : Dev} {now p o w : Nat} {rq : Req} {whole : Bool} {x : Hit}
    (h : d.refusal now rq p o w whole = none) (hc : commonOff o = false) (hf : findReg p o = some x) :
    d.busWrite now rq p o w whole = d.writeReg now rq x o w := by
  simp [busWrite, h, hc, hf]

/-- What raising an event changes: the page's raw event bits, and the messages its page sends. -/
theorem raise_off {d : Dev} {p n : Nat} (h : d.pageOn p = false) : d.raise p n = d := by simp [raise, h]

theorem msixSend_eq (d : Dev) (v : Nat) : ∃ b, d.msixSend v = { d with bus := b } := by
  unfold msixSend
  split
  · split
    · exact ⟨_, rfl⟩
    · exact ⟨_, rfl⟩
  · exact ⟨_, rfl⟩

theorem pageMsix_eq (d : Dev) (p : Nat) : ∃ b, d.pageMsix p = { d with bus := b } := by
  unfold pageMsix
  dsimp only
  split
  · exact msixSend_eq d _
  · exact ⟨_, rfl⟩

/-- Raising an event touches nothing but the page's event bits and the messages (R416, R417). -/
theorem raise_eq (d : Dev) (p n : Nat) : ∃ q b, d.raise p n = { d with pages := q, bus := b } := by
  unfold raise
  dsimp only
  split
  · split
    · obtain ⟨b, hb⟩ := pageMsix_eq (d.updPage p (fun q => { q with raw := setBit q.raw n true })) p
      exact ⟨_, b, hb⟩
    · exact ⟨_, _, rfl⟩
  · exact ⟨_, _, rfl⟩

end Dev
end Sys2Proof.Machine
end

