-- ==== Sys2Proof/Tests/Slice0.lean ====
section
/-! SUPPORT. Ill-formed terms that WellFormed refuses, small tests of single commands with results from the spec's own rules,
and for every statement a concrete state and operands that meet its hypotheses, clause by clause. -/

namespace Sys2Proof.Tests
set_option maxRecDepth 100000
set_option Elab.async false
open Sys2Proof Sys2Proof.Machine

/-- A device with every domain on, every page READY and unlocked, in READY, its registers at reset. -/
def dv : Dev :=
  { pwr := { on := 1023 }, boot := { stage := .ready, loaded := true, armed := true }
    pages := (List.range 64).map (fun p => (p, ({ ready := true, unlocked := true } : Page))), bus := { busMaster := true } }
/-- The same in RUN. -/
def dr : Dev := { dv with boot := { dv.boot with stage := .run } }
/-- A state around a device, at SYSCNT 1,000,000. -/
def sv (d : Dev) : State := { State.reset with dev := d, clk := { cnt := 1000000 } }
/-- Whether a command answers a next state of which a Bool holds. -/
def nxt (i : Instr) (s : State) (f : State → Bool) : Bool :=
  match exec i s with
  | .next t => f t
  | _ => false
/-- The device after a command. -/
def after (i : Instr) (s : State) : Dev :=
  match exec i s with
  | .next t => t.dev
  | _ => {}
/-- A slot that holds a command of an opcode with argument bytes. -/
def sl (op : Nat) (args : List Nat) : Slot := { handle := 32, op := op, args := args ++ List.replicate (48 - args.length) 0 }
/-- The device with that command waiting in slot 0. -/
def wt (d : Dev) (op : Nat) (args : List Nat) : Dev :=
  { d with bus := { d.bus with slots := [(0, some (sl op args))], waiting := [0] } }
/-- In RUN, with string A of four cells, 0 to 3, in service. -/
def ds : Dev :=
  ({ dr with link := (List.range 4).map (fun k => (k, ({ st := .active } : Link))), chord := (List.range 4).map (fun k => (k, ({ mode := .modulating } : Chord))) }.wr 0 0x30 1).wr 0 0x40 0x400
/-- The device with context 1 on and in a state, its configuration template 1 of priority class 0. -/
def dc (st : CtxState) : Dev := { dr with lat := { dr.lat with ctx := [(1, ({ en := true, st := st } : Ctx))] } }.wr 0x21 0x44 0x100
/-- Commands of the registers, each breaking one check. -/
def badRegs : List Instr :=
  [.registerWrite .pcie (.bar0 4096 0) 0 true, .registerWrite .pcie (.bar0 0 4096) 0 true, .registerWrite .pcie (.bar0 0 2) 0 true,
   .registerWrite .pcie (.bar2 65536) 0 true, .registerWrite .pcie (.bar2 6) 0 true, .lowerHalfRead .pcie 4096 ⟨0, .word⟩, .upperHalfRead .pcie 0 ⟨2, .word⟩,
   .lowerHalfRead .qspi 3 ⟨0x28, .pair⟩, .lowerHalfRead .pcie 3 ⟨0x2C, .pair⟩, .upperHalfRead .pcie 3 ⟨0x2C, .bytes 2 3⟩,
   .lowerHalfRead .qspi 3 ⟨0x28, .bytes 0 1⟩,
   .outRead .pcie 16, .pageKey .pcie 4096 0, .evtMaskWrite .pcie 4096 0, .evtPendClear .pcie 4096 0, .qspiFrame 256 0 [] 0 false,
   .qspiFrame 0 (2 ^ 24) [] 0 false, .qspiFrame 2 0 (List.replicate 65 0) 0 false, .qspiFrame 0x0B 0 [] 65 false, .submit 8, .unconf .pcie 4,
   .realign .pcie 52 1, .trimWrite .pcie 52 0 0, .trimWrite .pcie 0 12 0, .trimWrite .pcie 48 2 0, .deadCfgWrite .pcie 5 0, .ctxEnable .pcie 0 1,
   .ctxEnable .pcie 64 1, .ctxDisable .pcie 0 0, .ctxDisable .pcie 64 0, .reqOpen .pcie 0 true, .reqOpen .pcie 64 true, .reqClose .pcie 0 true,
   .reqClose .pcie 64 true, .reqIdle .pcie 0 true, .reqIdle .pcie 64 true, .withdraw .pcie 4 0, .channelStart .pcie 16, .channelStop .pcie 16,
   .resync .pcie 8, .rxEnSet .pcie 8, .rxEnClear .pcie 8, .ageFullWrite .pcie 48 0]
theorem wf_refuses_registers : badRegs.all (fun i => !i.wf) = true := by decide
/-- Commands of the command interface and of the time base. -/
def badCmds : List Instr :=
  [.calibrationEnd 0 [], .calibrationEnd 4 [], .prechargeTimeout 32, .ctxLoadReadEnd 0 (.ok []), .ctxLoadReadEnd 64 (.ok []),
   .ctxLoadReadEnd 1 (.ok [2 ^ 32]), .bankLoadEnd 8 (.ok []), .bankLoadEnd 0 (.ok [2 ^ 32]), .captureReadEnd 32 (.ok []),
   .captureReadEnd 0 (.ok [2 ^ 32]), .storeWriteEnd (.ok [2 ^ 32]), .ppsEdge (2 ^ 68), .irigFrame ⟨0, 61, 0, 0, 1, none, none, none⟩,
   .irigFrame ⟨0, 0, 60, 0, 1, none, none, none⟩, .irigFrame ⟨0, 0, 0, 24, 1, none, none, none⟩, .irigFrame ⟨0, 0, 0, 0, 0, none, none, none⟩,
   .irigFrame ⟨0, 0, 0, 0, 367, none, none, none⟩, .irigFrame ⟨2 ^ 68, 0, 0, 0, 1, none, none, none⟩,
   .irigFrame ⟨0, 0, 0, 0, 1, none, none, some ⟨false, false, 0, 16, true⟩⟩]
theorem wf_refuses_commands : badCmds.all (fun i => !i.wf) = true := by decide
/-- Events of the links and the nodes. -/
def badLinks : List Instr :=
  [.downstreamSubframe 52 2 0, .downstreamSubframe 0 1 0, .downstreamSubframe 0 2 384, .blockBoundary 1,
   .upstreamSubframe 52 0 0 0 false false false false, .upstreamSubframe 0 (2 ^ 68) 0 0 false false false false,
   .upstreamSubframe 0 0 3 0 false false false false, .upstreamSubframe 0 0 0 (2 ^ 24) false false false false, .linkLoss 52,
   .sample 52 0 false 0 1, .sample 0 8 false 0 1, .sample 0 0 false (-131073) 1, .sample 0 0 false 131072 1, .sample 0 0 false 0 0,
   .echo 52 0 0 0, .echo 0 16 0 0, .echo 0 0 (2 ^ 18) 0, .echo 0 0 0 (2 ^ 68), .upstreamBlockStatus 52 0, .upstreamBlockStatus 0 (2 ^ 68),
   .helloId 52 0 0, .helloId 0 16 0, .helloId 0 0 65536, .serialLo 52 0, .serialLo 0 (2 ^ 32), .serialHi 52 0, .serialHi 0 (2 ^ 32),
   .ack 52 0 0, .ack 0 16 0, .ack 0 0 16, .swdlyOn 0 12 0, .swdlyOn 0 0 16384, .swdlyOff 48 2 0, .swdlyOff 0 0 16384, .supplyV 52 0 0,
   .supplyV 0 0 16384, .testResult 52 0 0, .testResult 0 1 0, .testResult 48 2 0, .testResult 0 0 (-8193), .testResult 0 0 8192, .injectionTimeout 52,
   .chopTime 52 0, .chopTime 0 (2 ^ 18), .bypState 52 0, .bypState 0 4, .desat 0 12 0 0, .desat 0 0 4096 0, .desat 0 0 0 (2 ^ 68),
   .interlock 52 0 0 0, .interlockExpiry 52, .uvlo 48 2 0 0, .supplyLow 0 0 4096 0, .dcOv 0 0 0 (2 ^ 68), .chop 52 0 0 0, .nodeOt 52 0 0 0,
   .bypDone 52 0 0 0, .bypFail 52 0 0 0, .preDone 52 0 0 0, .preFail 52 0 0 0, .cmdRej 52 0 0 0, .testDone 52 0 0 0,
   .unlistedCode 52 0 0 0 0, .unlistedCode 0 64 0 0 0, .unlistedCode 0 0 16 0 0, .unlistedCode 0 0 0 4096 0, .unlistedCode 0 0 0 0 (2 ^ 68), .uErr 52 true]
theorem wf_refuses_links : badLinks.all (fun i => !i.wf) = true := by decide
/-- Events of the engines, the measurement chain, the streams and the supervisor. -/
def badRest : List Instr :=
  [.inputLatch 0 0 0, .inputLatch 64 0 0, .inputLatch 1 16 0, .inputLatch 1 0 8, .instanceEnd 0 0, .instanceEnd 64 0, .instanceEnd 1 16,
   .commit 0 [{ unit := 52, retreat := false }], .cellStart 52, .restEntry 48, .retreatReload 52, .vertexLatch 1, .vertexPublish 1,
   .clockAcquired ⟨0, 0⟩, .clockAcquired ⟨40, 65537⟩, .clockAcquired ⟨3201, 1⟩, .channelSettleStart ⟨16, 0, List.replicate 1023 false⟩,
   .channelSettleStart ⟨0, 0, []⟩, .cicOutput 16 0 [true], .cicOutput 0 0 [], .firOutput 16 0 0 ⟨640, 1⟩, .firOutput 0 0 0 ⟨0, 0⟩,
   .outputPublish 16, .phasorFrame 0 240, .waveOutput 0 0 ⟨0, 0⟩ [0, 0, 0, 0], .waveOutput 0 0 ⟨640, 1⟩ [0],
   .waveOutput 0 0 ⟨640, 1⟩ [0, 0, 0, 65536],
   .extTrigger ⟨true, 2 ^ 68⟩, .recordClose 2, .rxFrame 8 0 ⟨0, false, false⟩ ⟨0, false, false⟩ false false false false,
   .rxFrame 0 (2 ^ 68) ⟨0, false, false⟩ ⟨0, false, false⟩ false false false false,
   .rxFrame 0 0 ⟨2 ^ 24, false, false⟩ ⟨0, false, false⟩ false false false false,
   .rxFrame 0 0 ⟨0, false, false⟩ ⟨2 ^ 24, false, false⟩ false false false false,
   .rxBlock 8 0 0 0, .rxBlock 0 (2 ^ 32) 0 0, .rxBlock 0 0 (2 ^ 32) 0, .rxBlock 0 0 0 16, .rxLoss 8, .muteFadeEnd 8 1, .muteFadeEnd 0 3, .txBlock 8 0, .txBlock 0 (2 ^ 68),
   .domainOn 0, .domainOn 10, .domainOff 0, .domainOff 10, .selfTestEnd 256, .wdog 0, .linkUp 0 1, .linkUp 4 1, .linkUp 1 0, .linkUp 1 3,
   .housekeepingRound 0 ⟨[], [0, 0, 0, 0], [0, 0, 0, 0, 0, 0], 0, 0, 0, 0, 0, [], 0⟩,
   .housekeepingRound 0 ⟨List.replicate 16 0, [], [0, 0, 0, 0, 0, 0], 0, 0, 0, 0, 0, [], 0⟩,
   .housekeepingRound 0 ⟨List.replicate 16 0, [0, 0, 0, 0], [], 0, 0, 0, 0, 0, [], 0⟩]
theorem wf_refuses_events : badRest.all (fun i => !i.wf) = true := by decide

theorem wit_StepRunsFrontCommand : ({ State.reset with pending := [.tqChg] } : State).pending = [.tqChg] ∧ State.reset.pending = [] := by decide
theorem wit_SyscntAdvances : ({ dv with boot := { por := true } } : Dev).boot.por = true ∧ State.reset.dev.boot.por = false ∧
    nxt (.powerOnResetRelease true) (sv { dv with boot := { por := true } }) (fun t => t.clk.cnt == 0) = true ∧
    nxt .tqChg (sv dv) (fun t => t.clk.cnt == 1000000) = true ∧ (refclkEdge (sv dv)).clk.cnt = 1000040 := by decide
theorem wit_ring_reset : Ring.Inv State.reset.ring := by
  unfold Ring.Inv; decide
theorem wit_StepKeepsRingLegal :
    (match step { State.reset with pending := [.completion] } with
      | .next t => decide (t.ring = State.reset.ring)
      | _ => false) = true := by decide
theorem wit_RefusedWriteOnlyCounts : dv.refusal 0 .pcie 0 0x20 5 true = some 2 ∧
    nxt (.registerWrite .pcie (.bar0 0 0x20) 5 true) (sv dv) (fun t => t.dev.viol.count == 1) = true := by decide
theorem wit_WritesRefusedByAddress : State.reset.dev.pageOn 0x20 = false ∧ dv.pageTakes .pcie 2 = true ∧ Dev.commonOff 0xFF0 = false ∧
    findReg 2 0xFF0 = none ∧ dv.pageTakes .qspi 2 = true := by decide
theorem wit_AcceptedWriteTakesTheFields : dv.refusal 1000000 .pcie 5 0x20 3 true = none ∧ Dev.commonOff 0x20 = false ∧
    (findReg 5 0x20).isSome = true ∧ dv.refusal 1000000 .pcie 0x29 0x100 5 true = none ∧ (findReg 0x29 0x100).isSome = true ∧
    nxt (.registerWrite .pcie (.bar0 0x29 0x100) 5 true) (sv dv) (fun t => t.dev.rd 0x29 0x100 == 5) = true := by decide
/-- What a register holds after an accepted write over PCIe. -/
def mg (d : Dev) (page off w : Nat) : Nat :=
  match findReg page off with
  | some h => d.merged .pcie h off w
  | none => 0
/-- Table 0.3 on one register of each code: WO SET, W1C CAUSE, WOX VIOL_CLR, RW REQ, RWS DCM_CFG stopped and not, RWX ASYM
unlocked and locked, RWXS TRIM under both, locked, and running; bits [15:11] of TRIM are of no field. -/
theorem wit_MergedFields :
    mg dv 2 0x50 0x105 = 0 ∧ mg dv 2 0x28 0xFFF = 0 ∧ mg dv 0 0x408 1 = 0 ∧ mg dv 1 0x20 0x3F = 0x3F ∧
    mg dv 0 0x60 1 = 1 ∧ mg dr 0 0x60 1 = 0 ∧
    mg dv 0x10 0x400 7 = 7 ∧ mg (dv.updPage 0x10 (fun q => { q with unlocked := false })) 0x10 0x400 7 = 0 ∧
    mg dv 0x10 0x800 0xFFFFFFFF = 0x07FF07FF ∧ mg (dv.updPage 0x10 (fun q => { q with unlocked := false })) 0x10 0x800 7 = 0 ∧
    mg (dv.updLink 0 (fun l => { l with st := .active })) 0x10 0x800 7 = 0 ∧
    (findReg 0x10 0x800).any (fun h => h.row.flds.all (fun f => !(f.lo ≤ 15 && 15 ≤ f.hi))) = true := by decide +kernel
theorem wit_CommonRegisterAndViolClr : dv.refusal 1000000 .pcie 5 0x1C 0xE5A7 true = none ∧ dv.refusal 1000000 .pcie 5 0x14 1 true = none ∧
    dv.refusal 1000000 .pcie 5 0x18 1 true = none ∧ dv.refusal 1000000 .pcie 0 0x408 1 true = none ∧
    nxt (.pageKey .pcie 5 0) (sv dv) (fun t => !(t.dev.pg 5).unlocked) = true ∧
    nxt (.evtMaskWrite .pcie 5 1) (sv dv) (fun t => (t.dev.pg 5).mask == 1) = true ∧
    nxt (.evtPendClear .pcie 5 1) (sv (dv.raise 5 0)) (fun t => (t.dev.pg 5).raw == 0) = true ∧
    nxt (.violClr .pcie 1) (sv { dv with viol := { count := 7 } }) (fun t => t.dev.viol.count == 0) = true := by decide
theorem wit_RaiseSetsOneEventBit : dv.pageOn 5 = true ∧ ({ dv with pwr := { on := 1 } } : Dev).pageOn 8 = false ∧
    ((dv.raise 5 3).pg 5).raw = 8 := by decide
theorem wit_PairReads : dv.pageOn 3 = true ∧ Dev.commonOff 0x28 = false ∧ (findReg 3 0x28).isSome = true ∧
    dv.pair 1000000 3 0x28 = some (1000000, false) ∧ dv.pair 1000000 3 0x2C = some (1000000, true) ∧
    State.reset.dev.pageOn 0x20 = false ∧ findReg 2 0xFF0 = none ∧
    nxt (.lowerHalfRead .pcie 3 ⟨0x28, .word⟩) (sv dv) (fun t => t.dev.bus.respPcie == [1000000]) = true ∧
    nxt (.upperHalfRead .pcie 3 ⟨0x2C, .word⟩) (sv dv) (fun t => t.dev.bus.respPcie == [0]) = true := by decide
theorem wit_WindowReads : dv.pageOn 0x20 = true ∧ dv.pageOn 0x24 = true ∧ (dv.pg 0x24).unlocked = true ∧ dv.pageOn 0x28 = true ∧
    dv.pageOn 0x29 = true ∧ (dv.wr 0x20 0x60 0x105).fld 0x20 0x60 13 8 = 1 ∧
    nxt (.cdataRead .pcie) (sv (dv.wr 0x20 0x60 0x13F)) (fun t => t.dev.rd 0x20 0x60 == 0x100) = true ∧
    nxt (.lcodeDataRead .pcie) (sv (dv.wr 0x24 0x20 0x3FFF)) (fun t => t.dev.rd 0x24 0x20 == 0) = true ∧
    nxt (.outRead .pcie 3) (sv (dv.updChan 3 (fun c => { c with valid := true, out := { val := -1, stamp := 0x123 } })))
      (fun t => t.dev.bus.respPcie == [0x83FFFFFF]) = true := by decide
theorem wit_RdDataRead : (let d := ({ dv with prism := { bank := [(1, { loaded := true, taps := 2, rf := 1, coef := [5, 7] })] } } : Dev).wr 0x29 0x100 0x110001
    d.pageOn 0x29 = true ∧ (d.respOf (d.flag 0x29 0x100 20) (d.fld 0x29 0x100 19 16)).n = 2 ∧
    nxt (.rdDataRead .pcie) (sv d) (fun t => t.dev.bus.respPcie == [7] && t.dev.rd 0x29 0x100 == 0x110000) = true) := by decide
theorem wit_Qspi : dv.domOn 1 = true ∧ nxt (.qspiFrame 0x99 0 [] 0 false) (sv dv) (fun t => t.dev.bus.qspiErr == 1) = true ∧
    nxt (.qspiFrame 0x0B 0x20 [] 1 false) (sv dv) (fun t => t.dev.bus.respQspi.length == 1) = true ∧
    nxt (.qspiFrame 0x02 0x2050 [0x105] 0 false) (sv dv) (fun t => t.dev.holdOf 5 == .off) = true := by decide
theorem wit_Submission : dv.domOn 1 = true ∧ State.reset.dev.stageBars 2 = true ∧
    (let d := { dv with bus := { dv.bus with desc := [(0, 2), (8, 1)] } }
     d.stageBars ((d.descBytes 0).headD 0) = false ∧ descBad (d.descBytes 0) = none ∧ d.slot 0 = none ∧
     nxt (.submit 0) (sv d) (fun t => t.dev.bus.waiting == [0] && t.ring.seq == 2 && t.dev.bus.respPcie == [32]) = true) := by decide
theorem wit_RefusedSubmission : (let d := { dv with bus := { dv.bus with slots := (List.range 32).map (fun n => (n, some ({} : Slot))), desc := [(0, 2)] } }
    (∀ n, n < 32 → d.slot n ≠ none) ∧ nxt (.submit 0) (sv d) (fun t => t.dev.bus.respPcie == [65536]) = true) ∧
    nxt (.submit 0) (sv { dv with boot := { dv.boot with stage := .halt } }) (fun t => t.dev.bus.respPcie == [131072]) = true := by decide
theorem wit_Completion : (let d := { dv with bus := { dv.bus with slots := [(4, some { sl 2 [] with ended := some (0, 0, 9) })], ended := [4] } }
    d.slot 4 = some { sl 2 [] with ended := some (0, 0, 9) } ∧
    nxt .completion (sv d) (fun t => t.ring.unread == 1 && t.dev.slot 4 == none && (tget {} t.ring.cqe 0).handle == 32) = true ∧
    nxt .completion { sv d with ring := { unread := 63 } } (fun t => t.ring.unread == 63 && t.dev.slot 4 != none) = true) := by decide
theorem wit_CqHead : nxt (.cqHead .pcie 3) { sv dv with ring := { head := 1, tail := 3, unread := 2 } } (fun t => t.ring.head == 3 && t.ring.unread == 0) = true ∧
    nxt (.cqHead .pcie 4) { sv dv with ring := { head := 1, tail := 3, unread := 2 } } (fun t => t.ring.head == 1 && t.dev.viol.count == 1) = true := by decide
theorem wit_Link : (let d := { dv with bus := { dv.bus with linkUp := true } }
    d.bus.linkUp = true ∧ nxt .linkDown (sv d) (fun t => !t.dev.bus.linkUp && !t.dev.bus.busMaster && t.dev.bus.pcieRst == 1 && bit (t.dev.pg 8).raw 1) = true ∧
    nxt (.linkUp 4 1) (sv dv) (fun t => !t.dev.bus.linkUp) = true ∧
    nxt (.linkUp 3 2) (sv dv) (fun t => t.dev.bus.linkWr == 0x203 && (t.dev.pg 8).raw == 1) = true ∧
    nxt .pcieReset (sv d) (fun t => t.dev.bus.linkUp && !t.dev.bus.busMaster && t.dev.bus.pcieRst == 1) = true ∧
    nxt (.configurationWrite false true true) (sv d) (fun t => t.dev.bus.msixMask) = true) ∧
    (∀ c, (dv.cx c).load = none) ∧ (∀ b, tget none dv.prism.loading b = none) :=
  ⟨by decide, fun _ => rfl, fun _ => rfl⟩
theorem wit_HullWrites : dv.refusal 1000000 .qspi 2 0x50 0x105 true = none ∧ (let d := dv.modHull (fun h => { h with hold := [(5, .off)] })
    d.refusal 1000000 .pcie 2 0x54 5 true = none ∧ nxt (.clr .pcie 5) (sv d) (fun t => t.dev.holdOf 5 == .none) = true) ∧
    dv.refusal 1000000 .pcie 2 0x58 1 true = none ∧ dv.refusal 1000000 .pcie 2 0x58 2 true = none ∧
    dv.refusal 1000000 .pcie 2 0x68 1 true = none ∧ dv.flag 2 0x64 31 ≠ (Req.qspi == .qspi) ∧
    nxt (.set .qspi 0x105) (sv dv) (fun t => t.dev.holdOf 5 == .off) = true ∧
    nxt (.force .pcie) (sv dv) (fun t => t.dev.hull.cause == 1024 && t.dev.hull.trip) = true ∧
    nxt (.fbrk .pcie) (sv dv) (fun t => t.dev.hull.cause == 2048 && !t.dev.hull.trip) = true ∧
    nxt (.kick .pcie 1) (sv dv) (fun t => t.dev.hull.kick == 1000000) = true := by decide
theorem wit_CauseClears : (let d := dv.modHull (fun h => { h with cause := 0xC1 })
    d.refusal 1000000 .pcie 2 0x28 0x80 true = none ∧ nxt (.causeClear .pcie 0x80) (sv d) (fun t => t.dev.hull.cause == 0x41) = true) ∧
    bit 0x40 6 = true ∧ ({ dv.hull with safeN := true } : Hull).safeN = true ∧ bit 0x100 8 = true ∧ bit 0x80 7 = true := by decide
theorem wit_Consent : dv.refusal 1000000 .qspi 2 0x6C 0xA5C3 true = none ∧ Req.pcie ≠ .qspi ∧ (0xA5C4 : Word) ≠ 0xA5C3 ∧
    nxt (.consent .qspi 0xA5C3) (sv dv) (fun t => t.dev.hull.consent == some 1001000000) = true := by decide
theorem wit_ResetPowerAndSource : dv.refusal 1000000 .pcie 0 0x78 0xB007 true = none ∧
    dv.refusal 1000000 .pcie 1 0x20 0x3 true = none ∧ dv.refusal 1000000 .pcie 3 0x20 1 true = none ∧ bits 1 2 0 ≠ dv.src ∧
    dv.locus.st ≠ .fault ∧ nxt (.rstCtrl .pcie 0xB007) (sv dv) (fun t => t.dev.boot.warm) = true ∧
    nxt (.srcChange .pcie 1) (sv dv) (fun t => t.dev.src == 1 && t.dev.locus.st == .acquire) = true := by decide
theorem wit_Topology : dv.refusal 1000000 .pcie 0 0x40 0x80000000 true = none ∧ dv.boot.stage = .ready ∧ bit 1 0 = true ∧
    (dv.updLink 3 (fun l => { l with st := .standby })).refusal 1000000 .pcie (facetPage 3) (0x40 + 0x20 * unitIdx 3) 1 true = none ∧
    posOk 3 2 = true ∧ dv.refusal 1000000 .pcie (facetPage 3) (0x800 + 0x40 * unitIdx 3 + 4 * 2) 5 true = none ∧
    dv.refusal 1000000 .pcie 0x18 0x20 1000 true = none ∧ dv.refusal 1000000 .pcie 0x34 0x404 7 true = none ∧
    (ds.wr 0x1E 0x80 0x00010001).refusal 1000000 .pcie 0x1E 0x8C 1 true = none ∧ dv.refusal 1000000 .pcie 0x1E 0x400 1 true = none ∧
    nxt (.unconf .pcie 0) (sv (dv.wr 0 0x40 0x400)) (fun t => t.dev.strCount 0 == 0) = true ∧
    nxt (.realign .pcie 3 1) (sv (dv.updLink 3 (fun l => { l with st := .standby, delay := 9 }))) (fun t =>
      (t.dev.lk 3).st == .down && (t.dev.lk 3).delay == 0) = true ∧
    nxt (.withdraw .pcie 0 1) (sv (ds.wr 0x1E 0x80 0x00010001)) (fun t => t.dev.rd 0x1E 0x8C == 1) = true ∧
    nxt (.freeze .pcie 1) (sv dv) (fun t => t.dev.rd 0x1E 0x400 == 1) = true ∧
    nxt (.deadCfgWrite .pcie 0 1000) (sv dv) (fun t => t.dev.rd 0x18 0x20 == 1000) = true := by decide
theorem wit_TrimAndAge : nxt (.trimWrite .pcie 3 2 5) (sv dv) (fun t => t.dev.rd (facetPage 3) (0x800 + 0x40 * unitIdx 3 + 8) == 5) = true ∧
    nxt (.ageFullWrite .pcie 0 7) (sv dv) (fun t => decide (0 < (t.dev.mc 0).age)) = true := by decide +kernel
theorem wit_ContextControl : (dv.wr 0x21 0x44 0x100).refusal 1000000 .pcie 0x21 0x40 1 true = none ∧ bit 1 0 = true ∧
    (dv.cx 1).en = false ∧ (dc .idle).refusal 1000000 .pcie 0x21 0x40 0 true = none ∧ ((dc .idle).cx 1).en = true ∧
    ((dc .idle).wr 0x21 0x44 0xA00).refusal 1000000 .pcie 0x21 0x40 0x11 true = none ∧
    ((dc .opened).wr 0x21 0x44 0x8000).refusal 1000000 .pcie 0x21 0x40 0x21 true = none ∧
    (dc .opened).refusal 1000000 .pcie 0x21 0x40 0x31 true = none ∧
    nxt (.reqIdle .pcie 1 true) (sv (dc .opened)) (fun t => (t.dev.cx 1).req == 3 && (t.dev.cx 1).en) = true ∧
    nxt (.reqOpen .pcie 1 true) (sv ((dc .idle).wr 0x21 0x44 0xA00)) (fun t => (t.dev.cx 1).req == 1) = true ∧
    nxt (.reqClose .pcie 1 true) (sv ((dc .opened).wr 0x21 0x44 0x8000)) (fun t => (t.dev.cx 1).req == 2) = true ∧
    nxt (.ctxDisable .pcie 1 0) (sv (dc .idle)) (fun t => !(t.dev.cx 1).en) = true ∧
    nxt (.ctxEnable .pcie 1 1) (sv (dv.wr 0x21 0x44 0x100)) (fun t => (t.dev.cx 1).en) = true := by decide
theorem wit_LatticeWrites : (let d := dv.wr 0x20 0x60 0x13F
    d.refusal 1000000 .pcie 0x20 0x64 7 true = none ∧ dv.refusal 1000000 .pcie 0x24 0x24 7 true = none ∧
    d.refusal 1000000 .pcie 0x20 0x78 7 true = none ∧ dv.refusal 1000000 .pcie 0x20 0x20 5000 true = none ∧
    dv.refusal 1000000 .pcie 0x20 0x24 4000 true = none ∧
    nxt (.cdataWrite .pcie 7) (sv d) (fun t => (t.dev.cx 1).staged == [(63, 7)] && t.dev.rd 0x20 0x60 == 0x100) = true ∧
    nxt (.lcodeDataWrite .pcie 7) (sv dv) (fun t => t.dev.lat.code == [(0, 7)] && t.dev.rd 0x24 0x20 == 1) = true ∧
    nxt (.tgtWrite .pcie 7) (sv d) (fun t => (t.dev.elem 1 0).tgt == 7) = true ∧
    nxt (.loopLatWrite .pcie 4500) (sv dv) (fun t => t.dev.lat.latNext == some (4500, 1005000)) = true ∧
    nxt (.periodWrite .pcie 6000) (sv dv) (fun t => t.dev.rd 0x20 0x20 == 6000) = true) := by decide
theorem wit_MeasurementAndStream : (let d := dv.wr 0x28 0x20 0x10028
    d.refusal 1000000 .pcie 0x28 0x100 1 true = none ∧ d.flag 0x28 0x100 0 = false ∧
    (d.wr 0x28 0x100 1).refusal 1000000 .pcie 0x28 0x100 0 true = none ∧ (d.wr 0x28 0x100 1).flag 0x28 0x100 0 = true ∧
    d.refusal 1000000 .pcie 0x2B 0x20 1 true = none ∧ dv.refusal 1000000 .pcie 0x2C 0x20 1 true = none ∧
    dv.refusal 1000000 .pcie 0x2C 0x28 1 true = none ∧ dv.refusal 1000000 .pcie 0x2A 0x38 1 true = none ∧
    dv.refusal 1000000 .pcie 0x2B 0x3C 1 true = none ∧
    (let r := { dv with cap := { wf := { recs := [{ id := 1, keep := true }] } } }
     r.refusal 1000000 .pcie 0x2C 0xBC 1 true = none ∧
     nxt (.rel .pcie 1) (sv r) (fun t => t.dev.cap.wf.recs.all (fun x => !x.keep)) = true) ∧
    nxt (.channelStart .pcie 0) (sv d) (fun t => (t.dev.chan 0).st == .starting) = true ∧
    nxt (.waveRun .pcie) (sv d) (fun t => t.dev.wave.running && t.dev.wave.skip == 3) = true ∧
    nxt (.pop .pcie) (sv { dv with phasor := { queue := [{ tai := 1 }, { tai := 2 }] } }) (fun t => t.dev.phasor.queue.length == 1) = true ∧
    nxt (.arrPop .pcie) (sv { dv with wave := { fifo := [{ chan := 1 }, { chan := 2 }] } }) (fun t => t.dev.wave.fifo.length == 1) = true ∧
    nxt (.captureEn .pcie) (sv dv) (fun t => t.dev.rd 0x2C 0x20 == 1) = true ∧
    nxt (.hostTrigger .pcie) (sv dv) (fun t => t.dev.rd 0x2C 0x28 == 0) = true ∧
    dv.refusal 1000000 .pcie 0x30 0x100 (setBit (dv.rd 0x30 0x100) 0 true) true = none ∧ dv.rxEn 0 = false ∧
    (dv.wr 0x30 0x100 1).refusal 1000000 .pcie 0x30 0x100 (setBit ((dv.wr 0x30 0x100 1).rd 0x30 0x100) 0 false) true = none ∧
    (dv.wr 0x30 0x100 1).rxEn 0 = true ∧
    nxt (.rxEnSet .pcie 0) (sv dv) (fun t => (t.dev.port! 0).st == .search) = true ∧
    nxt (.rxEnClear .pcie 0) (sv ((dv.wr 0x30 0x100 1).updPort 0 (fun p => { p with st := .search }))) (fun t => (t.dev.port! 0).st == .off) = true ∧
    dv.refusal 1000000 .pcie 0x30 0x134 1 true = some 5 ∧
    (let x := (dv.wr 0x30 0x120 0x70000).updPort 0 (fun p => { p with st := .locked, rate := 7, txFall := true })
     x.refusal 1000000 .pcie 0x30 0x134 1 true = none ∧
     nxt (.resync .pcie 0) (sv x) (fun t => (t.dev.port! 0).txResync) = true)) := by decide
theorem wit_ChannelStop : nxt (.channelStop .pcie 0) (sv ((dv.wr 0x28 0x100 1).updChan 0 (fun c => { c with st := .running, now := 1 })))
    (fun t => (t.dev.chan 0).st == .stopped && !(t.dev.chan 0).valid) = true := by decide
/-- Link 3 in a state. -/
def dl (st : LinkState) : Dev := dv.updLink 3 (fun l => { l with st := st })
theorem wit_Downstream : (dl .down).linked 3 = false ∧ (let d := (dl .active).updLink 3 (fun l => { l with safeQ := some (2, 2) })
    d.linked 3 = true ∧ (d.lk 3).safeQ = some (2, 2) ∧
    nxt (.downstreamSubframe 3 4 1) (sv d) (fun t => (t.dev.lk 3).ds.any (fun f => f.word == ctlWord 1 2 && f.pre == 2 && f.at_ == 983680)) = true) ∧
    nxt (.downstreamSubframe 3 4 0) (sv (dl .down)) (fun t => (t.dev.lk 3).ds.any (fun f => f.word == 0xC00000 && f.v && f.pre == 0)) = true := by decide
/-- V by the link's state, and no subframe before Hull is armed (R61, R446). -/
theorem wit_DownstreamV : ({ dl .active with boot := { dv.boot with armed := false } } : Dev).boot.armed = false ∧ dv.boot.armed = true ∧
    dv.boot.por = false ∧ ((dl .standby).lk 3).st ≠ .active ∧ ((dl .active).placeRaw 5 3 .off).effective 3 ≠ .none ∧
    (dl .active).effective 3 = .none ∧ ((dl .active).ch 3).mode ≠ .held ∧
    nxt (.downstreamSubframe 3 4 1) (sv { dl .active with boot := { dv.boot with armed := false } }) (fun t => (t.dev.lk 3).ds.isNone) = true ∧
    nxt (.downstreamSubframe 3 4 1) (sv (dl .standby)) (fun t => (t.dev.lk 3).ds.any (fun f => f.v)) = true ∧
    nxt (.downstreamSubframe 3 4 1) (sv (dl .active)) (fun t => (t.dev.lk 3).ds.any (fun f => !f.v)) = true := by decide
theorem wit_Upstream : (ones 24 (5 % 2 ^ 24) + b2n false + b2n false + b2n false + b2n false) % 2 = 0 ∧
    (ones 24 (1 % 2 ^ 24) + b2n false + b2n false + b2n false + b2n false) % 2 = 1 ∧ dv.linked 3 = false ∧
    nxt (.upstreamSubframe 3 16000 1 5 false false false false) (sv dv) (fun t => (t.dev.lk 3).rxWord == some 5) = true ∧
    nxt (.upstreamSubframe 3 16000 1 1 false false false false) (sv dv) (fun t => (t.dev.lk 3).parErr == 1) = true ∧
    nxt (.sample 3 0 true 77 9) (sv dv) (fun t => tget (1048576, 0) (t.dev.lk 3).samp 0 == (77, 9)) = true := by decide
theorem wit_LinkManagement : (dl .down).linked 3 = false ∧ (dl .active).linked 3 = true ∧
    (let d := (dl .hello).updLink 3 (fun l => { l with admitSeq := some 2, dsetSeq := some 5 })
     (d.lk 3).st = .hello ∧ (d.lk 3).admitSeq = some 2 ∧ (d.lk 3).dsetSeq = some 5 ∧ (d.lk 3).nodeAligned = false ∧
     nxt (.ack 3 4 2) (sv d) (fun t => (t.dev.lk 3).admitted) = true ∧
     nxt (.ack 3 5 5) (sv d) (fun t => (t.dev.lk 3).dsetAck) = true) ∧
    nxt (.helloId 3 1 2) (sv (dl .active)) (fun t => (t.dev.lk 3).st == .lost) = true ∧
    nxt (.linkLoss 3) (sv (dl .hello)) (fun t => (t.dev.lk 3).st == .hello && (t.dev.lk 3).lossUp) = true ∧
    nxt (.linkLoss 3) (sv (dl .active)) (fun t => (t.dev.lk 3).st == .lost) = true ∧
    nxt (.uErr 3 true) (sv (dl .active)) (fun t => (t.dev.lk 3).uErr == 1) = true ∧
    nxt (.serialLo 3 7) (sv dv) (fun t => (t.dev.lk 3).hLo == some 7) = true ∧
    nxt (.serialHi 3 8) (sv dv) (fun t => (t.dev.lk 3).hHi == some 8) = true := by decide
theorem test_lossInHello : ((Dev.linkTurn 1000000 ((dl .hello).updLink 3 (fun l => { l with seen := true, lossUp := true })) 3).lk 3).st = .down := by
  decide +kernel
theorem wit_Echo : (let d := (dl .active).updLink 3 (fun l => { l with echoReq := some (4, 1000) })
    d.linked 3 = true ∧ (d.lk 3).echoReq = some (4, 1000) ∧ (d.lk 3).echoes = []) := by decide
theorem wit_EchoWithin : (let d := (dl .active).updLink 3 (fun l => { l with echoReq := some (4, 1000), echoes := [900], delay := 7200 })
    let half : Int := (17000 : Int) - 16 * 1000 - 100 + d.asym 3
    let win : Int := (bits (d.rd (facetPage 3) 0x28) 7 0 : Nat)
    8 * half - (d.lk 3).delay ≤ 16 * win ∧ -(16 * win) ≤ 8 * half - (d.lk 3).delay) := by decide
/-- A block status whose CRC is right: all other bits 0. -/
def csGood : Nat := crc16 0 * 2 ^ 176
theorem wit_BlockStatus : (let d := (dl .active).updLink 3 (fun l => { l with csB := true, csBits := csGood, csTaken := 2 ^ 192 - 1, bsStale := true })
    (d.lk 3).csB = true ∧ (d.lk 3).csTaken = 2 ^ 192 - 1 ∧ crc16 (d.lk 3).csBits = bits (d.lk 3).csBits 191 176 ∧
    nxt (.upstreamBlockStatus 3 16000) (sv d) (fun t => !(t.dev.lk 3).bsStale && (t.dev.lk 3).upCrc == some 0) = true) ∧
    (let d := (dl .active).updLink 3 (fun l => { l with csB := true })
     (d.lk 3).csTaken ≠ 2 ^ 192 - 1 ∧ (d.lk 3).bsBad < 2 ∧
     nxt (.upstreamBlockStatus 3 16000) (sv d) (fun t => (t.dev.lk 3).bsErr == 1) = true) := by decide +kernel
/-- A status with every bit taken whose CRC fails: counted, and BS_STALE at the third in a row (R75, R76). -/
theorem wit_BlockStatusBad : (let d := (dl .active).updLink 3 (fun l => { l with csB := true, csBits := csGood + 1, csTaken := 2 ^ 192 - 1 })
    (d.lk 3).csTaken = 2 ^ 192 - 1 ∧ crc16 (d.lk 3).csBits ≠ bits (d.lk 3).csBits 191 176 ∧ (d.lk 3).bsBad < 2 ∧
    nxt (.upstreamBlockStatus 3 16000) (sv d) (fun t => (t.dev.lk 3).bsErr == 1 && !(t.dev.lk 3).bsStale) = true ∧
    (let e := d.updLink 3 (fun l => { l with bsBad := 2 })
     (e.lk 3).bsBad = 2 ∧ nxt (.upstreamBlockStatus 3 16000) (sv e) (fun t => (t.dev.lk 3).bsErr == 1 && (t.dev.lk 3).bsStale) = true)) := by
  decide +kernel
theorem wit_BlockBoundary : (2 : Nat) ≤ 18 ∧ (3 : Nat) < 52 ∧
    nxt (.blockBoundary 18) (sv (({ pwr := { on := 3 } } : Dev).updLink 3 (fun l => { l with st := .standby, seen := true, mgtQ := [0xC40001] })))
      (fun t => t.dev.linked 3 && (t.dev.lk 3).mgtQ == [0xC40001, 0xC40002]) = true := by decide +kernel
theorem wit_NodeEventsFault : dv.pageOn 0 = true ∧ Dev.evBit 2 = some 9 ∧ (dv.nodeLog 3 3 2 0 0).bootPos 3 2 = false ∧ (dv.lk 3).intlk = [] ∧
    (48 : Nat) ≤ 50 ∧ (ds.nodeLog 3 9 2 0 0).profC = false ∧ ((ds.nodeLog 3 9 2 0 0).faultDecide 1000000 3 9 0).strOf 3 = some 0 ∧
    nxt (.desat 3 2 0 0) (sv ds) (fun t => t.dev.holdOf 3 == .bypass && (t.dev.lk 3).nDesat == 1 && bit t.dev.hull.cause 0) = true ∧
    nxt (.interlock 3 2 0 0) (sv ds) (fun t => t.dev.holdOf 3 == .none && (t.dev.lk 3).nIntlk == 1) = true ∧
    nxt (.uvlo 3 2 0 0) (sv ds) (fun t => (t.dev.lk 3).nUvlo == 1) = true ∧
    nxt (.dcOv 3 2 0 0) (sv ds) (fun t => (t.dev.lk 3).nDcov == 1) = true ∧
    nxt (.nodeOt 3 2 0 0) (sv ds) (fun t => bit t.dev.hull.cause 0) = true ∧
    nxt (.bypFail 50 2 0 0) (sv ds) (fun t => (t.dev.lk 50).lastCode == 9) = true := by decide +kernel
theorem wit_OtherNodeEvents : (dv.nodeLog 3 4 0 0 0).profC = false ∧
    (let d := dv.modHull (fun h => { h with withdrawn := [(3, true)] })
     tget false (d.nodeLog 3 8 0 0 0).hull.withdrawn 3 = true ∧
     nxt (.bypDone 3 0 0 0) (sv d) (fun t => !tget false t.dev.hull.withdrawn 3) = true) ∧ (13 : Nat) < 20 ∧ posOk 3 2 = true ∧
    nxt (.supplyLow 3 0 0 0) (sv dv) (fun t => (t.dev.vc 3).leave) = true ∧
    nxt (.cmdRej 3 0 0 0) (sv dv) (fun t => (t.dev.lk 3).nRej == 1) = true ∧
    nxt (.unlistedCode 3 20 0 0 0) (sv dv) (fun t => (t.dev.lk 3).nOther == 1) = true ∧
    nxt (.interlockExpiry 3) (sv (dv.updLink 3 (fun l => { l with intlk := [1] }))) (fun t => (t.dev.lk 3).intlk == [1]) = true ∧
    nxt (.chop 3 1 0 0) (sv dv) (fun t => (t.dev.lk 3).lastCode == 6) = true ∧
    nxt (.testDone 3 1 0 0) (sv dv) (fun t => (t.dev.lk 3).lastCode == 13) = true ∧
    nxt (.swdlyOn 3 2 7) (sv dv) (fun t => tget 0 (t.dev.lk 3).dlyOn 2 == 7) = true ∧
    nxt (.swdlyOff 3 2 7) (sv dv) (fun t => tget 0 (t.dev.lk 3).dlyOff 2 == 7) = true ∧
    nxt (.supplyV 3 2 7) (sv dv) (fun t => tget 0 (t.dev.lk 3).supV 2 == 7) = true ∧
    nxt (.chopTime 3 7) (sv dv) (fun t => (t.dev.lk 3).chopT == 7) = true ∧
    nxt (.bypState 3 2) (sv dv) (fun t => (t.dev.lk 3).byp == 2) = true := by decide +kernel
theorem wit_CommandsInOrder : dv.nextCmd 1 = none ∧ dv.nextCmd 2 = none ∧ dv.nextCmd 3 = none ∧ dv.nextCmd 4 = none ∧ dv.nextCmd 8 = none ∧
    dv.nextCmd 9 = none ∧ dv.nextCmd 10 = none ∧ dv.nextCmd 16 = none ∧ dv.nextCmd 17 = none ∧ dv.nextCmd 18 = none ∧
    dv.nextCmd 24 = none ∧ dv.nextCmd 25 = none ∧ dv.nextCmd 32 = none ∧ (wt dv 2 []).slot 0 = some (sl 2 []) ∧ (sl 2 []).ended = none ∧
    (({ sl 2 [] with ended := some (0, 0, 0) } : Slot).ended ≠ none) := by decide
theorem wit_Arm : (let d := (((wt dv 1 []).wr 0 0x30 0x10000).wr 0x35 0x20 0).updLink 48 (fun l => { l with st := .standby })
    d.nextCmd 1 = some (0, sl 1 []) ∧ (sl 1 []).early = 0 ∧ (d.beginCmd 0).armRefused 1000000 = false ∧
    d.tDie < ((8 * d.hull.tsdThr : Nat) : Rat) - 80 ∧ d.armBusy = false ∧
    nxt .cmdArm (sv d) (fun t => t.dev.boot.arming == some (5, 0)) = true) := by decide +kernel
theorem wit_ArmedAndDisarm : (let d := { wt dv 1 [] with boot := { dv.boot with arming := some (5, 0) } }
    d.boot.arming = some (5, 0) ∧ d.boot.stage = .ready ∧
    nxt (.armed 5) (sv d) (fun t => t.dev.boot.stage == .run && (t.dev.slot 0).any (fun s => s.ended.isSome)) = true) ∧
    (let d := wt dr 2 [1]
     d.nextCmd 2 = some (0, sl 2 [1]) ∧ Dev.argLE (sl 2 [1]) 0 1 = 1 ∧ d.boot.stage = .run ∧ d.armBusy = false ∧
     nxt .cmdDisarm (sv d) (fun t => t.dev.boot.stage == .ready && t.dev.hull.disarm == .off) = true) := by decide +kernel
theorem wit_TimeSet : (let a := bytesLE 8 999000 ++ bytesLE 8 5000000000 ++ bytesLE 4 100
    let d := wt dv 3 a
    d.nextCmd 3 = some (0, sl 3 a) ∧ d.src ≠ 2 ∧ d.src ≠ 3 ∧ Dev.argLE (sl 3 a) 0 8 ≤ 1000000 ∧
    1000000 ≤ Dev.argLE (sl 3 a) 0 8 + 1000000000 ∧ Dev.argLE (sl 3 a) 16 4 ≠ 0 ∧ (d.src = 1 → Dev.argLE (sl 3 a) 16 4 < 500000000)) := by decide
theorem wit_Calibrate : (let d := wt dv 4 [3]
    d.nextCmd 4 = some (0, sl 4 [3]) ∧ 1 ≤ Dev.argLE (sl 4 [3]) 0 1 ∧ Dev.argLE (sl 4 [3]) 0 1 ≤ 3 ∧ d.boot.stage = .ready ∧ d.boot.calib = none ∧
    nxt .cmdCalibrate (sv d) (fun t => t.dev.boot.calib == some (3, 0)) = true) ∧ Dev.calOk 3 [40] = true ∧ Dev.calOk 3 [70] = false ∧
    (let d := { wt dv 4 [3] with boot := { dv.boot with calib := some (3, 0) } }
     nxt (.calibrationEnd 3 [70]) (sv d) (fun t => (t.dev.slot 0).any (fun s => s.ended == some (0x20, 0, 1000000))) = true ∧
     nxt .calibrateTimeout (sv d) (fun t => (t.dev.slot 0).any (fun s => s.ended == some (0x21, 0, 1000000))) = true) := by decide
theorem wit_TransfersBegin : (let a := [1, 0, 4, 0]
    let d := wt dv 0x10 a
    d.bus.busMaster = true ∧ d.nextCmd 0x10 = some (0, sl 0x10 a) ∧ Dev.argLE (sl 0x10 a) 8 8 % 2 = 0 ∧ d.domOn 2 = true ∧
    (d.cx 1).load = none ∧ (d.cx 1).st ≠ .fault ∧ nxt .cmdCtxLoad (sv d) (fun t => (t.dev.cx 1).load == some (0, false)) = true) ∧
    (let a := [2, 0, 3, 0, 1, 0, 0, 0]
     let d := wt dv 0x11 a
     d.nextCmd 0x11 = some (0, sl 0x11 a) ∧ Dev.argLE (sl 0x11 a) 2 2 = 3 ∧ (∀ k, k < 16 → (d.beginCmd 0).bankUsed 2 k = false) ∧
     tget none d.prism.loading 2 = none ∧ nxt .cmdBankLoad (sv d) (fun t => (tget none t.dev.prism.loading 2).isSome) = true) ∧
    (let a := bytesLE 4 8 ++ bytesLE 4 4
     let d := (wt dv 0x19 a).wr 0x2C 0x60 0x80000001
     d.nextCmd 0x19 = some (0, sl 0x19 a) ∧ 8 + 4 ≤ d.partBytes 4 ∧ d.partEn 4 = true ∧ (d.beginCmd 0).storeInUse = false ∧
     nxt .cmdStoreWrite (sv d) (fun t => t.dev.cap.storeWr == [(0, 8, 4)]) = true) ∧
    (let a := [4, 0, 0, 0, 0, 0, 0, 0] ++ bytesLE 8 0 ++ bytesLE 4 0 ++ bytesLE 4 64 ++ bytesLE 8 4096
     let d := (wt dv 0x18 a).wr 0x2C 0x60 0x80000001
     d.nextCmd 0x18 = some (0, sl 0x18 a) ∧ (d.beginCmd 0).crBad (sl 0x18 a) = none ∧ Dev.argLE (sl 0x18 a) 1 1 = 0 ∧
     nxt .cmdCaptureRead (sv d) (fun t => t.dev.cap.reads.length == 1) = true) := by decide +kernel
theorem wit_RespSwap : (let a := [0, 1, 8, 0]
    let d := (wt dv 0x12 a).updChan 0 (fun c => { c with st := .running })
    d.nextCmd 0x12 = some (0, sl 0x12 a) ∧ d.chAux 0 = false ∧ d.compat false (d.respNow 0) 1 = true ∧ (d.chan 0).fade = none ∧
    1 ≠ (d.chan 0).now ∧ d.demand + d.demand1 0 ≤ Dev.prismCap ∧
    nxt .cmdRespSwap (sv d) (fun t => (t.dev.chan 0).fade == some { frm := 0, dst := 1, len := 8, n := 0, slot := 0 }) = true) ∧
    (0 : Nat) = ((dv.updChan 0 (fun c => { c with st := .running })).chan 0).now := by decide +kernel
theorem wit_TransfersEnd : (let s0 := { sl 0x10 [1, 0, 2, 0] with begun := true }
    let d := { dv with bus := { dv.bus with slots := [(0, some s0)] }, lat := { dv.lat with ctx := [(1, ({ load := some (0, false) } : Ctx))] } }
    d.slot 0 = some s0 ∧ (d.cx 1).load = some (0, false) ∧ Dev.argLE s0 3 1 = 0 ∧ [5, 0xFFFF].length = Dev.argLE s0 2 1 ∧
    nxt (.ctxLoadReadEnd 1 (.ok [5, 0xFFFF])) (sv d) (fun t => (t.dev.cx 1).loadVals == [(0, 5), (1, -1)]) = true) ∧
    (let s0 := { sl 0x11 [2, 0, 2, 0, 1] with begun := true }
     let d := { dv with bus := { dv.bus with slots := [(0, some s0)] }, prism := { loading := [(2, some (0, 2, 1, 0))] } }
     tget none d.prism.loading 2 = some (0, 2, 1, 0) ∧ Dev.argLE s0 8 1 = 0 ∧
     (∀ w, w ∈ [5, 0xFF800000] → w / 2 ^ 23 = 0 ∨ w / 2 ^ 23 = 2 ^ 9 - 1) ∧ (0x00800000 / 2 ^ 23 ≠ 0 ∧ 0x00800000 / 2 ^ 23 ≠ 2 ^ 9 - 1) ∧
     nxt (.bankLoadEnd 2 (.ok [5, 0xFF800000])) (sv d) (fun t => (t.dev.bankOf 2).coef == [5, -8388608]) = true ∧
     nxt (.bankLoadEnd 2 (.ok [5, 0x00800000])) (sv d) (fun t => (t.dev.slot 0).any (fun s => s.ended == some (0x10, 0, 1000000))) = true) ∧
    (let s0 := { sl 0x18 [4] with begun := true }
     let r : CapRead := { slot := 0, part := 4, n := 4, len := 4, addr := 64 }
     let d := { dv with bus := { dv.bus with slots := [(0, some s0)] }, cap := { reads := [r], store := [(0, 9)] } }
     d.cap.reads.find? (fun x => x.slot == 0) = some r ∧
     nxt (.captureReadEnd 0 (.ok [])) (sv d) (fun t => t.dev.bus.dma == [(64, [9, 0, 0, 0])]) = true) ∧
    (let s0 := { sl 0x19 [] with begun := true }
     let d := { dv with bus := { dv.bus with slots := [(0, some s0)] }, cap := { storeWr := [(0, 8, 4)] } }
     d.cap.storeWr = (0, 8, 4) :: [] ∧
     nxt (.storeWriteEnd (.ok [0x04030201])) (sv d) (fun t => t.dev.cap.store == [(8, 1), (9, 2), (10, 3), (11, 4)]) = true) := by decide +kernel
theorem wit_Nvm : (let d := wt dv 0x20 (bytesLE 8 0 ++ bytesLE 4 64)
    (d.nextCmd 0x20).isSome = true ∧ (d.beginCmd 0).nvmRefused (sl 0x20 (bytesLE 8 0 ++ bytesLE 4 64)) = none ∧
    nxt .cmdNvmWrite (sv d) (fun t => t.dev.nvm.writing == some (1, 0)) = true) ∧
    (let d := { wt dv 0x20 (bytesLE 8 0) with nvm := { b := some (4, ⟨[], [], [], [], 0, 0, 4⟩) } }
     (d.beginCmd 0).nvmRefused (sl 0x20 (bytesLE 8 0)) = some (0x10, 16) ∧ nxt .cmdNvmWrite (sv d) (fun t => t.dev.nvm.b == none) = true) ∧
    (let d := { wt dv 0x20 [] with nvm := { writing := some (1, 0) } }
     d.nvm.writing = some (1, 0) ∧ d.nvm.saveDue = false ∧
     nxt (.writeEnd .crcBad) (sv d) (fun t => (t.dev.slot 0).any (fun s => s.ended == some (0x20, 0, 1000000)) && t.dev.nvm.b == none) = true) ∧
    dv.domOn 9 = true ∧ dv.awareUp = true ∧ dv.nvm.saving = false ∧ dv.nvm.writing = none ∧ dv.therm.nvmOk = true ∧
    nxt .ageingSave (sv dv) (fun t => t.dev.nvm.saving) = true ∧
    nxt (.saved true) (sv { dv with nvm := { saving := true } }) (fun t => t.dev.nvm.done == 1 && !t.dev.nvm.saving) = true ∧
    nxt (.saved false) (sv { dv with nvm := { saving := true } }) (fun t => t.dev.nvm.done == 0 && !t.dev.nvm.saving) = true := by decide +kernel
/-- READY with string A of four cells and cell 0 in STANDBY. -/
def dp (op : Nat) (a : List Nat) : Dev := (((wt dv op a).wr 0 0x30 1).wr 0 0x40 0x400).updLink 0 (fun l => { l with st := .standby })
theorem wit_Precharge : (let a := [1, 0, 0, 0, 0, 0, 100, 0, 100, 0]
    let d := dp 8 a
    d.nextCmd 8 = some (0, sl 8 a) ∧ Dev.preMask (sl 8 a) = [0] ∧ (d.strOf 0).isSome = true ∧ 2 * (Dev.argLE (sl 8 a) 6 2 % 32768) < d.fld 0 0x64 15 0 ∧
    Dev.argLE (sl 8 a) 8 2 ≠ 0 ∧ Dev.argLE (sl 8 a) 8 2 ≤ 60000 ∧ d.readyRun = true ∧ (d.lk 0).st = .standby ∧ d.holdOf 0 ≠ .bypass ∧ d.pre = [] ∧
    nxt .cmdPrecharge (sv d) (fun t => t.dev.pre == [⟨0, [0], [0], 1000000, 100⟩]) = true) ∧
    (let p : Pre := ⟨0, [3], [3], 0, 100⟩
     let d := { wt dv 8 [] with pre := [p] }
     d.pre = [p] ∧ p.cells.contains 3 = true ∧ p.left = [3] ∧
     nxt (.prechargeTimeout 0) (sv d) (fun t => (t.dev.slot 0).any (fun s => s.ended == some (0x21, 0, 1000000)) && t.dev.pre == []) = true ∧
     nxt (.preFail 3 0 0 0) (sv d) (fun t => (t.dev.slot 0).any (fun s => s.ended == some (0x20, 0, 1000000))) = true ∧
     nxt (.preDone 3 0 0 0) (sv d) (fun t => (t.dev.slot 0).any (fun s => s.ended == some (0, 0, 1000000))) = true) := by decide +kernel
theorem wit_Diagnostics : (let a := [1, 0, 0, 0]
    let d := dp 9 a
    d.nextCmd 9 = some (0, sl 9 a) ∧ Dev.osMask (sl 9 a) = [0] ∧ d.domOn 9 = true ∧ d.diag.os.running = false ∧
    bits (d.lk 0).dsStatus 111 108 < 2 ∧ d.vdcHigh 0 = false ∧ d.pre = [] ∧
    nxt .cmdOffstateRun (sv d) (fun t => t.dev.diag.os.running) = true) ∧
    osPos (tget 0 dv.diag.os.inj 0 - 1) = osPos (0 - 1) := by decide +kernel
theorem wit_Pilot : (let a := [0, 2] ++ bytesLE 2 1 ++ bytesLE 2 230 ++ bytesLE 2 16 ++ [2]
    let d := (((wt dr 10 a).updCell 0 (fun c => { c with role := .sharing })).wr 0x1E 0x400 1).wr 0x34 0x100 0x1000
    d.nextCmd 10 = some (0, sl 10 a) ∧ Dev.argLE (sl 10 a) 1 1 = 2 ∧ 1 ≤ d.fld 0x35 0x64 15 0 ∧ d.flag 0x35 0x60 8 = false ∧
    10 < 230 % 50 ∧ 230 % 50 + 10 < 50 ∧ 4 * 230 * d.lat.tc ≤ 1000000000 ∧ d.boot.stage = .run ∧ d.domOn 9 = true ∧
    (d.vc 0).role = .sharing ∧ d.flag 0x1E 0x400 0 = true ∧ d.wset 0 ≠ 0 ∧ d.diag.pt.running = false ∧
    nxt .cmdPilotRun (sv d) (fun t => t.dev.diag.pt.running && t.dev.diag.pt.freq == 230) = true) := by decide +kernel
theorem wit_PilotWindow : (let d := { dr with diag := { pt := { running := true, t0 := some 0, navg := 4, cell := 0 } } }
    d.diag.pt.running = true ∧ d.diag.pt.win = 0 ∧ d.diag.pt.t0 ≠ none ∧ d.diag.pt.navg ≠ 0) := by decide
theorem wit_Stages : (let d := { dv with boot := { stage := .reset } }
    d.boot.stage = .reset ∧ d.boot.por = false ∧ d.hull.tsdReset = false ∧
    nxt (.safeEntry true) (sv d) (fun t => t.dev.boot.stage == .safe) = true) ∧
    (let d := { dv with boot := { stage := .aware, loaded := true } }
     d.boot.stage = .aware ∧ d.boot.loaded = true ∧ nxt (.selfTestEnd 0) (sv d) (fun t => t.dev.boot.stage == .ready) = true ∧
     nxt (.selfTestEnd 1) (sv d) (fun t => t.dev.boot.stage == .halt && t.dev.boot.stFail == 1) = true) ∧
    (let d := { dv with boot := { dv.boot with warm := true } }
     d.boot.warm = true ∧ nxt .warmReset (sv d) (fun t => t.dev.boot.stage == .aware) = true) ∧
    State.reset.dev.boot.armed = false ∧ State.reset.dev.boot.por = false ∧ nxt .hullArmed State.reset (fun t => t.dev.boot.armed) = true ∧
    (let d := { dv with boot := { stage := .aware, firstLoad := true } }
     d.boot.loaded = false ∧ d.boot.firstLoad = true ∧ nxt .nvmLoadEnd (sv d) (fun t => t.dev.boot.loaded) = true) ∧
    Stage.rank .aware < dv.boot.stage.rank := by decide +kernel
theorem wit_HullEvents : dv.hull.tsdLive = false ∧ dv.boot.armed = true ∧ dv.domOn 2 = true ∧ dv.readyRun = true ∧ (0 : Nat) < 2 ∧
    (let d := dr.wr 2 0x64 1
     d.boot.stage = .run ∧ d.fld 2 0x64 15 0 ≠ 0 ∧ d.hull.kick + d.fld 2 0x64 15 0 * 1000000 ≤ 1000000 ∧
     nxt .hostwd (sv d) (fun t => bit t.dev.hull.cause 9) = true) ∧ dv.boot.stage ≠ .run ∧ dv.hull.safeN = false ∧ dv.boot.por = false ∧
    nxt .thermalShutdown (sv dv) (fun t => t.dev.boot.stage == .cooldown && t.dev.hull.tsdCount == 1) = true ∧
    nxt (.wdog 2) (sv dr) (fun t => t.dev.hull.wdog == 2 && t.dev.boot.stage == .ready) = true ∧
    nxt .safeN (sv dr) (fun t => bit t.dev.hull.cause 6 && t.dev.hull.safeN) = true ∧ dr.faultN = false ∧ dr.flag 2 0x20 6 = true ∧
    (let d := dr.wr 2 0x20 0
     d.flag 2 0x20 6 = false ∧ nxt .safeN (sv d) (fun t => bit t.dev.hull.cause 6) = true) ∧
    nxt .safeNRelease (sv { dv with hull := { safeN := true } }) (fun t => !t.dev.hull.safeN) = true ∧
    nxt .tsdLiveClear (sv { dv with hull := { tsdLive := true } }) (fun t => !t.dev.hull.tsdLive) = true ∧
    nxt .consentExpiry (sv { dv with hull := { consent := some 1000000 } }) (fun t => t.dev.hull.consent == none) = true := by decide +kernel
theorem wit_HullDecisions : dv.hull.cause = 0 ∧ (dv.latchBit 5 3).hull.cause ≠ 0 ∧ dv.pageOn 2 = true ∧
    (dv.placeRaw 5 49 .bypass).holdOf 49 = .off ∧ (48 : Nat) ≤ 49 ∧ (ds.faultDecide 5 9 1 0 0).strOf 9 = none ∧
    (ds.faultDecide 5 2 1 0 0).strOf 2 = some 0 ∧ (ds.faultDecide 5 2 1 0 0).profC = false ∧
    ((ds.faultDecide 5 2 1 0 0).place 5 2 .bypass).flag 0 0x60 0 = false ∧
    (let d := ds.wr 0 0x30 0x101
     (d.faultDecide 5 2 1 0 0).strOf 2 = some 0 ∧ (d.faultDecide 5 2 1 0 0).profC = true) := by decide +kernel
theorem wit_PowerOn : ({ dv with boot := { por := true } } : Dev).boot.por = true ∧
    nxt .powerOnReset (sv dv) (fun t => t.dev.boot.por && t.dev.pages == []) = true := by decide +kernel
theorem wit_Domains : (let d := { dv with pwr := { on := 3, trans := 4, rising := 4 }, boot := { stage := .safe } }
    bit d.pwr.trans 2 = true ∧ bit d.pwr.rising 2 = true ∧ d.awareUp = false ∧
    nxt (.domainOn 2) (sv d) (fun t => t.dev.domOn 2 && (t.dev.pg 0x20).ready) = true) ∧
    (let d := (({ dv with pwr := { on := 3, trans := 4, rising := 4 } } : Dev).wr 0x20 0x60 5).wr 0x34 0x20 6
     d.awareUp = true ∧ d.image = none ∧ pageDomain 0x20 = some 2 ∧ pageDomain 0x34 ≠ some 2 ∧
     nxt (.domainOn 2) (sv d) (fun t => t.dev.domOn 2 && (t.dev.pg 0x20).ready && t.dev.rd 0x20 0x60 == 0 && t.dev.rd 0x34 0x20 == 6) = true) ∧
    (let im : Image := ⟨[(0x1E020, 5)], [], [], [], 0, 0, 4⟩
     let d := { dv with pwr := { on := 3, trans := 8, rising := 8 }, nvm := { a := some (1, im) } }
     d.awareUp = true ∧ nxt (.domainOn 3) (sv d) (fun t => t.dev.domOn 3 && t.dev.rd 0x1E 0x20 == 5) = true) ∧
    (let d := ({ dv with pwr := { on := 7, trans := 4 } } : Dev).wr 1 0x20 3
     bit d.pwr.rising 2 = false ∧ d.flag 1 0x20 2 = false ∧ nxt (.domainOff 2) (sv d) (fun t => !t.dev.domOn 2) = true) := by decide +kernel
theorem wit_Housekeeping : State.reset.dev.boot.stage = .reset ∧ dv.boot.stage ≠ .reset ∧ dv.boot.por = false := by decide
/-- Locus in a state with SRC a source. -/
def dt (src : Nat) (l : Locus) : Dev := { dv with locus := l }.wr 3 0x20 src
/-- A BCD frame without control functions: day 1, 00:00:00. -/
def fr : IrigFrame := { edge := 16000000, sec := 0, min := 0, hour := 0, day := 1, year := some 2024, sbs := none, cf := none }
theorem wit_TimeSource : (1 : Nat) ≤ dv.stage.rank ∧ (let d := dt 1 { st := .acquire }
    d.src = 1 ∧ d.locus.st = .acquire ∧ d.locus.row = 0 ∧
    nxt (.ppsEdge 32000000) (sv d) (fun t => t.dev.locus.offset == ux 64 (-2000000) && t.dev.locus.row == 1) = true) ∧
    (let d := dt 1 { st := .locked, lastEdge := 0 }
     d.src = 1 ∧ d.locus.lastEdge / 16 + 500000000 ≤ 16000000160 / 16 ∧ d.phaseOf (16000000160 / 16) ≤ d.stepThresh ∧
     -d.stepThresh ≤ d.phaseOf (16000000160 / 16) ∧ 160 / 16 < d.locus.lastEdge / 16 + 500000000 ∧
     nxt (.ppsEdge 160) (sv d) (fun t => t.dev.locus.ppsRej == 1) = true) ∧
    (let d := dt 2 { st := .locked, lastEdge := 16000000, haveEdge := true }
     d.src = 2 ∧ Dev.irigBad { fr with sbs := some 5 } = true ∧ Dev.irigBad fr = false ∧ d.irigFar fr = false ∧ d.locus.disagree = none ∧
     nxt (.irigFrame { fr with sbs := some 5 }) (sv d) (fun t => t.dev.locus.irigErr == 1) = true ∧
     nxt (.irigFrame fr) (sv d) (fun t => t.dev.locus.srcTq == 15 && t.dev.locus.irigTs == some 1000000) = true) ∧
    (let d := dt 1 { st := .locked }
     d.locus.st = .locked ∧ d.src ≠ 0 ∧ d.src ≠ 4) ∧
    (let d := dt 4 { st := .locked, setTs := some 7 }
     d.locus.st = .locked ∧ d.src = 4 ∧ d.locus.setTs = some 7) := by decide +kernel
theorem wit_Leap : (let d := dv.wr 3 0x4C 0x125
    d.leapPend = true ∧ d.leapNeg = false ∧ nxt .leapSecondStart (sv d) (fun t => t.dev.locus.active) = true ∧
    (let e := { d with locus := { active := true } }
     e.locus.active = true ∧ nxt .leapDone (sv e) (fun t => t.dev.taiUtc == 38 && !t.dev.leapPend) = true) ∧
    (let e := d.wr 3 0x4C 0x325
     e.leapNeg = true ∧ nxt .leapDone (sv e) (fun t => t.dev.taiUtc == 36) = true)) ∧
    nxt .leapOccurredEnd (sv { dv with locus := { occurred := some 4 } }) (fun t => t.dev.locus.occurred == none) = true ∧
    dv.locus.refOk = true ∧ nxt .refclkLoss (sv dr) (fun t => t.dev.locus.st == .fault && bit t.dev.hull.cause 8 && t.dev.boot.stage == .ready) = true ∧
    (let d := dt 1 { refOk := false, st := .fault }
     d.locus.refOk = false ∧ nxt .refclkReturn (sv d) (fun t => t.dev.locus.st == .acquire && t.dev.locus.refOk) = true) := by decide +kernel
theorem wit_MeasClock : (let d := (dv.wr 0x28 0x20 0x20028).updChan 2 (fun c => { c with st := .waitClk })
    d.domOn 5 = true ∧ d.clkMode = 2 ∧ d.prism.acq = false ∧
    nxt (.clockAcquired ⟨640, 1⟩) (sv { d with prism := { d.prism with loss := true, range := true } })
      (fun t => (t.dev.chan 2).st == .restarting && t.dev.prism.pbar == ⟨640, 1⟩ && !t.dev.prism.loss && !t.dev.prism.range) = true) ∧
    (let d := { dv.wr 0x28 0x20 0x20028 with wave := { running := true, waitClk := false } }
     d.wave.running = true ∧ ({ d with wave := { waitClk := true } } : Dev).wave.waitClk = true ∧
     nxt .clkLoss (sv d) (fun t => !t.dev.wave.running && t.dev.wave.waitClk && t.dev.prism.loss) = true ∧
     nxt .clkRange (sv d) (fun t => t.dev.prism.range) = true) ∧
    (dv.updChan 2 (fun c => { c with st := .running })).active 2 = true := by decide +kernel
/-- A running channel 0 of response 0 at R_c = 64, INT clock. -/
def dch (c : Chan) : Dev := (dv.wr 0x28 0x20 0x10028).updChan 0 (fun _ => { c with st := .running })
theorem wit_ChannelOutputs : (dch {}).active 0 = true ∧ (List.replicate ((dch {}).chRc 0) true).length = (dch {}).chRc 0 ∧
    (((dch {}).chRc 0 : Int) - 0) % ((dch {}).chRc 0 : Int) = 0 ∧ (((dch {}).outClks 0 : Int) - 0) % ((dch {}).outClks 0 : Int) = 0 ∧
    ((dch { fade := some { frm := 0, dst := 1, len := 8, n := 3 } }).chan 0).fade = some { frm := 0, dst := 1, len := 8, n := 3 } := by decide +kernel
theorem test_cic : nxt (.cicOutput 0 ((dch {}).chRc 0) (List.replicate ((dch {}).chRc 0) true)) (sv (dch {}))
    (fun t => (t.dev.chan 0).i1.toNat == (dch {}).chRc 0 && (t.dev.chan 0).hist.length == 1) = true := by decide +kernel
theorem test_publish : nxt (.outputPublish 0) (sv (dch { wait := [{ val := 5, stamp := 99 }] }))
    (fun t => (t.dev.chan 0).valid && (t.dev.chan 0).out.val == 5 && (t.dev.chan 0).wait == []) = true := by decide +kernel
theorem wit_SettleStart : (let d := (dch {}).updChan 0 (fun _ => { st := .starting, start := 1000000, hist := [1], nOut := 4 })
    d.domOn 5 = true ∧ d.clkOk = true ∧ (d.chan 0).st = .starting ∧ (d.chan 0).start ≤ 1000000 ∧ (0 : Int) % (d.outClks 0 : Int) = 0 ∧
    (d.chan 0).c0 = none ∧ (List.replicate 1023 true).length = 1023 ∧
    nxt (.channelSettleStart ⟨0, 0, List.replicate 1023 true⟩) (sv d) (fun t =>
      (t.dev.chan 0).st == .settling && (t.dev.chan 0).c0 == some 0 && (t.dev.chan 0).hist == [] && (t.dev.chan 0).line.length == 1023) = true) ∧
    (dch { c0 := some 64 }).pastC0 0 64 = false ∧ (dch { c0 := some 64 }).pastC0 0 128 = true := by decide +kernel
theorem wit_Fir : ([1, -8388608] : List Int).length ≤ 384 ∧ (∀ x ∈ ([1, -8388608] : List Int), -8388608 ≤ x ∧ x ≤ 8388607) ∧
    firSum [4194304] [2] = 1 := by decide +kernel
theorem wit_Phasor : (let d := dv.wr 0x2A 0x20 1
    d.phasorOn = true ∧ (0 : Nat) < d.phFs ∧ d.phasor.lastTai = none ∧
    repInstant (d.repAt 5 0) d.locus.offset none d.phasor.steps = some 5000000000 ∧ d.pageOn 0x2A = true) := by decide +kernel
theorem wit_Wave : (let d := { dv with wave := { running := true, skip := 1 } }
    d.domOn 6 = true ∧ d.wave.running = true ∧ ([1, 1, 1, 1] : List Nat).length = 4 ∧
    nxt (.waveOutput 8 0 ⟨640, 1⟩ [1, 1, 1, 1]) (sv d) (fun t => t.dev.wave.skip == 0 && (tget {} t.dev.wave.chan 0).i1.toNat == 4) = true) := by decide +kernel
/-- A ring with one free slot and an open record. -/
def rg (used : List Nat) (keep : Bool) : RingSt :=
  { slots := 2, slot := 0, opened := some { id := 9, slot := 0 }, used := used, recs := [{ id := 1, slot := 1, keep := keep }] }
theorem wit_Records : (let d := (dv.wr 0x2C 0x2C 3).wr 0x2C 0x30 0x50002
    d.domOn 7 = true ∧ d.flag 0x2C 0x2C 0 = true ∧ d.flag 0x2C 0x2C 1 = true ∧ d.flag 0x2C 0x30 1 = true ∧ d.cap.pulse = none ∧
    nxt (.extTrigger ⟨!d.flag 0x2C 0x34 0, 160⟩) (sv d) (fun t => t.dev.cap.pulse == some 1000500) = true ∧
    nxt (.extTrigger ⟨d.flag 0x2C 0x34 0, 160⟩) (sv d) (fun t => t.dev.cap.pulse == none) = true) ∧ dv.flag 0x2C 0x2C 0 = false ∧
    nxt .triggerPulseEnd (sv { dv with cap := { pulse := some 4 } }) (fun t => t.dev.cap.pulse == none) = true ∧
    (({ dv with cap := { wf := rg [] false } } : Dev).ringOf 0).opened = some { id := 9, slot := 0 } ∧
    nxt (.recordClose 0) (sv { dv with cap := { wf := rg [] false } }) (fun t => t.dev.cap.wf.recs.length == 2 && t.dev.cap.wf.slot == 1) = true ∧
    nxt (.recordClose 0) (sv { dv with cap := { wf := rg [1] true } }) (fun t => t.dev.cap.wf.recs.length == 1 && t.dev.cap.wf.lost == 1) = true ∧
    nxt (.recordClose 0) (sv { dv with cap := { wf := rg [1] false } }) (fun t => t.dev.cap.wf.nOver == 1 && t.dev.cap.wf.slot == 1) = true := by decide +kernel
/-- Port 0 in a condition. -/
def dpt (p : Port) : Dev := { dv with port := [(0, p)] }
theorem wit_Streams : (let p : Port := { st := .locking, blocks := [(0, 0)], lastFrame := some 0, fhat := 333333, rate := 3, frames := [(0, 0, 9, 8)] }
    (dpt p).rxOn 0 = true ∧ p.st ≠ .search ∧ p.blocks ≠ [] ∧ p.fhat * 98 / 100 ≤ ((333333 - 0 : Nat) : Rat) ∧ ((333333 - 0 : Nat) : Rat) ≤ p.fhat * 102 / 100 ∧
    subMissing (rxBits ⟨5, false, false⟩ false false) = false ∧ subMissing (rxBits ⟨6, false, false⟩ true true) = true ∧ rxStamp 0 4000000 0 = 64000000 ∧
    nxt (.rxFrame 0 333333 ⟨5, false, false⟩ ⟨6, false, false⟩ false true false true) (sv (dpt p)) (fun t => (t.dev.port! 0).frames.head? == some (0, 0, 5, 8) && (t.dev.port! 0).par == 1) = true) ∧
    (let p : Port := { st := .search, ivl := 333333, lastFrame := some 0 }
     (dpt p).rxOn 0 = true ∧ p.ivl ≠ 0 ∧ (dpt p).rxRate 0 p.ivl = 3 ∧
     nxt (.rxFrame 0 333333 ⟨5, false, false⟩ ⟨6, false, false⟩ false false false false) (sv (dpt p)) (fun t => (t.dev.port! 0).lastFrame == some 333333) = true ∧
     nxt (.rxBlock 0 0 62499 15) (sv (dpt p)) (fun t => (t.dev.port! 0).st == .locking && (t.dev.port! 0).rate == 3) = true ∧
     nxt (.rxLoss 0) (sv (dpt p)) (fun t => (t.dev.port! 0).rate == 0) = true) := by decide +kernel
theorem wit_StreamLocked : (let p : Port := { st := .locking, blocks := [(0, 0)], nFrames := 192, stable := 15, stableOk := true, rate := 3, fhat := 333333 }
    let e := (((64000000, p.total + 192) :: p.blocks).take 17).getLast?.getD (0, 0)
    let f : Rat := ((64000000 - e.1 : Nat) : Rat) / (p.total + 192 - e.2 : Nat)
    p.st = .locking ∧ p.blocks ≠ [] ∧ p.nFrames = 192 ∧ p.stable = 15 ∧ p.stableOk = true ∧ f ≠ 0 ∧ fNom p.rate - f ≤ f / 5000 ∧ f - fNom p.rate ≤ f / 5000 ∧
    nxt (.rxBlock 0 0 4000000 0) (sv (dpt p)) (fun t => (t.dev.port! 0).st == .locked && (t.dev.port! 0).total == 192) = true) := by decide +kernel
theorem wit_StreamFades : (let p : Port := { st := .locked, closing := true, s1 := { w := 5 } }
    (dpt p).rxOn 0 = true ∧ p.closing = true ∧ (dpt p).pwr.fadeOff = false ∧ p.s2.w = 0 ∧ ({ p with s1 := {} } : Port).s1.w = 0 ∧
    nxt (.muteFadeEnd 0 1) (sv (dpt p)) (fun t => (t.dev.port! 0).st == .off) = true) ∧
    (let d := dv.wr 0x30 0x120 0x30001
     d.txMay 0 64000000 = true ∧ nxt (.txBlock 0 64000000) (sv d) (fun t => (t.dev.port! 0).txRun && (t.dev.port! 0).txTs == 64000000) = true ∧
     d.txMay 0 77 = false ∧ nxt (.txBlock 0 77) (sv d) (fun t => !(t.dev.port! 0).txRun) = true) := by decide +kernel
/-- Context 1 open on template 1 with input 0 from a stream of constants, at period 200. -/
def dl8 : Dev := (dc .opened).wr 0x21 0x48 0x8001
theorem wit_Latch : dl8.latOn = true ∧ (0 : Nat) < dl8.nElem 1 ∧ dl8.dueAt 1 (dl8.runM 1000000) = true ∧ (dl8.elem 1 0).done = false ∧
    tget none (dl8.elem 1 0).inp 0 = none ∧ bits (dl8.selOf 1 0) 15 12 ≠ 0 ∧ dl8.latchVal 1 0 0 (dl8.runM 1000000) = some (0, false) ∧
    nxt (.inputLatch 1 0 0) (sv dl8) (fun t => tget none (t.dev.elem 1 0).inp 0 == some 0) = true ∧ (dc .opened).latched 1 0 = true := by decide +kernel
theorem wit_ContextCommit : (dc .idle).dueAt 1 5 = false ∧ (dc .opened).dueAt 1 5 = true ∧
    (List.range ((dc .opened).nElem 1)).all (fun e => ((dc .opened).elem 1 e).done) = false ∧
    (let d := (dc .opened).updElem 1 0 (fun e => { e with done := true, sout := [7, 0, 0, 0] })
     (List.range (d.nElem 1)).all (fun e => (d.elem 1 e).done) = true ∧ ((Dev.commitRun 0 5 d 1).elem 1 0).out = [7, 0, 0, 0]) ∧
    ((dc .opened).updCtx 1 (fun x => { x with req := 3 })).reqAllowed 1 3 true = true ∧
    ((dc .idle).updCtx 1 (fun x => { x with req := 2 })).reqAllowed 1 2 true = false ∧
    ((Dev.commitRun 0 5 ((dc .opened).updCtx 1 (fun x => { x with ovr := 2 })) 1).cx 1).st = .fault := by decide +kernel
theorem wit_Vertex : ds.domOn 3 = true ∧ ds.stage = .run ∧ ds.strings = [0] ∧ ds.strCells 0 = [0, 1, 2, 3] ∧ dv.stage ≠ .run ∧
    nxt (.vertexPublish 5) (sv { dv with vcell := [(0, { g := 7 })] }) (fun t => (t.dev.vc 0).g == 0 && t.dev.vBlk == 5) = true := by decide +kernel
theorem wit_Units : (let d := dv.updChord 3 (fun c => { c with mode := .starting, startPk := some 5 })
    (d.ch 3).mode = .starting ∧ (d.ch 3).startPk ≠ none ∧ nxt (.cellStart 3) (sv d) (fun t => (t.dev.ch 3).mode == .modulating) = true) ∧
    (let d := dv.updChord 3 (fun c => { c with mode := .modulating, restPk := some 5 })
     (d.ch 3).mode = .modulating ∧ (d.ch 3).restPk ≠ none ∧ nxt (.restEntry 3) (sv d) (fun t => (t.dev.ch 3).mode == .resting) = true) ∧
    (let d := ds.updChord 3 (fun c => { c with mode := .retreat, legA := { carry := 5 } })
     (d.ch 3).mode = .retreat ∧ d.unitOn 3 = true ∧
     nxt (.retreatReload 3) (sv d) (fun t => (t.dev.ch 3).mode == .starting && (t.dev.ch 3).legA.carry == 0) = true) := by decide +kernel
/-- A working cell of Vertex. -/
def vw (k : Nat) : VWork :=
  { k := k, pos := k, role := .sharing, health := .good, h := 0, eps := 0, eta := 1, kf := 1, gPrev := 1, gx := 1, law := 0, since := 0, age := 0,
    w := 1, alt := 1, tgt := 1, fixed := false, g := 0 }
theorem wit_Shares : (([(vw 0, 1 / 3), (vw 1, 5 / 3)] : List (VWork × Rat)).map (fun p => p.1.k)).Nodup ∧
    (∀ p ∈ ([(vw 0, 1 / 3), (vw 1, 5 / 3)] : List (VWork × Rat)), 0 ≤ p.2) ∧
    sumR (([(vw 0, 1 / 3), (vw 1, 5 / 3)] : List (VWork × Rat)).map (fun p => p.2)) = ((2 : Nat) : Rat) := by decide +kernel
/-- Narrower and 64-bit reads of SYSCNT. -/
theorem wit_ReadWidths : Dev.commonOff 0x2C = false ∧ (findReg 3 0x2C).isSome = true ∧
    nxt (.lowerHalfRead .pcie 3 ⟨0x28, .bytes 1 2⟩) (sv dv) (fun t => t.dev.bus.respPcie == [3906]) = true ∧
    nxt (.upperHalfRead .pcie 3 ⟨0x2C, .bytes 0 1⟩) (sv dv) (fun t => t.dev.bus.respPcie == [0]) = true ∧
    nxt (.lowerHalfRead .pcie 3 ⟨0x28, .pair⟩) (sv dv) (fun t => t.dev.bus.respPcie == [1000000, 0]) = true := by decide
/-- Windows that stand closed: context 0, a locked page, an unloaded bank. -/
theorem wit_ClosedWindows : (dv.wr 0x20 0x60 0x3F).fld 0x20 0x60 13 8 = 0 ∧
    nxt (.cdataRead .pcie) (sv (dv.wr 0x20 0x60 0x3F)) (fun t => t.dev.bus.respPcie == [0] && t.dev.rd 0x20 0x60 == 0x3F) = true ∧
    (let d := (dv.wr 0x24 0x20 9).updPage 0x24 (fun p => { p with unlocked := false })
     (d.pg 0x24).unlocked = false ∧ nxt (.lcodeDataRead .pcie) (sv d) (fun t => t.dev.bus.respPcie == [0] && t.dev.rd 0x24 0x20 == 9) = true) ∧
    (let d := dv.wr 0x29 0x100 0x110007
     (d.respOf (d.flag 0x29 0x100 20) (d.fld 0x29 0x100 19 16)).n = 0 ∧
     nxt (.rdDataRead .pcie) (sv d) (fun t => t.dev.bus.respPcie == [0] && t.dev.rd 0x29 0x100 == 0x110007) = true) := by decide
theorem wit_CompletingReads : dv.pageOn 0x20 = true ∧ (dv.wr 0x20 0x60 0x105).fld 0x20 0x60 13 8 ≠ 0 ∧ dv.pageOn 0x24 = true ∧
    (dv.pg 0x24).unlocked = true ∧ dv.pageOn 0x28 = true ∧ dv.pageOn 0x29 = true ∧
    nxt (.cdataRead .qspi) (sv ((dv.wr 0x20 0x60 0x105).updCtx 1 (fun x => { x with k := [(5, -2)] }))) (fun t =>
      t.dev.bus.respQspi == [0xFFFE]) = true ∧
    nxt (.lcodeDataRead .qspi) (sv { dv with lat := { dv.lat with code := [(0, 77)] } }) (fun t => t.dev.bus.respQspi == [77]) = true := by decide
theorem wit_CompletingCommonWrites : dv.stage = .ready ∧ dv.pageOn 5 = true ∧ (dv.pg 5).ready = true ∧ ((1 : Word).toNat &&& evtBits 5) = (1 : Word).toNat ∧
    dv.pageOn 0 = true ∧ (dv.pg 0).unlocked = true ∧
    nxt (.pageKey .pcie 5 0xE5A7) (sv dv) (fun t => (t.dev.pg 5).unlocked) = true := by decide
theorem wit_CompletingMeasWrites : (let d := dv.wr 0x28 0x20 0x10028
    d.stage = .ready ∧ d.pageOn 0x28 = true ∧ (d.pg 0x28).ready = true ∧ d.flag 0x28 0x100 0 = false ∧ d.clkOk = true ∧ d.chAux 0 = false ∧
    d.demand + d.demand1 0 ≤ 6553 ∧ (d.chan 0).st = .stopped ∧ d.flag 0x28 0x28 0 = false ∧ (d.wr 0x28 0x28 1).flag 0x28 0x28 0 = true ∧
    d.pageOn 0x2B = true ∧ (d.pg 0x2B).ready = true ∧ d.flag 0x2B 0x20 0 = false ∧ d.domOn 5 = true ∧ d.pageOn 0x2A = true ∧ (d.pg 0x2A).ready = true ∧
    d.pageOn 0x2C = true ∧ (d.pg 0x2C).ready = true ∧ d.flag 0x2C 0x20 0 = false ∧
    (∀ i, (i = 0 ∨ i = 1 ∨ i = 3) → d.partEn i = true → 2 ≤ d.slotsFor i) ∧
    (d.wr 0x28 0x100 1).flag 0x28 0x100 0 = true) ∧
    (let r : Rec := { id := 1, keep := true }
     let d := { dv with cap := { wf := { recs := [r] } } }
     r ∈ (d.ringOf 0).recs ∧ r.id = (1 : Word).toNat ∧ Dev.recLocked r = true) := by
  refine ⟨⟨?_, ?_, ?_, ?_, ?_, ?_, ?_, ?_, ?_, ?_, ?_, ?_, ?_, ?_, ?_, ?_, ?_, ?_, ?_, ?_, ?_⟩, ?_⟩
  case refine_20 => rintro i (rfl | rfl | rfl) <;> decide +kernel
  all_goals decide +kernel
theorem wit_CompletingStreamWrites : dv.pageOn 0x30 = true ∧ (dv.pg 0x30).ready = true ∧ bits (dv.rd 0x30 0x2C0) 31 12 = 0 ∧
    bits (dv.rd 0x30 0x2C0) 7 3 = 0 ∧ dv.fld 0x30 0x2C0 11 8 ≤ 9 ∧ dv.rxEn 7 = false ∧ dv.irigHeld = false ∧
    (dv.wr 0x30 0x2C0 1).rxEn 7 = true ∧
    nxt (.rxEnSet .pcie 7) (sv dv) (fun t => (t.dev.port! 7).st == .search) = true ∧
    (let x := (dv.wr 0x30 0x120 0x70000).updPort 0 (fun p => { p with st := .locked, rate := 7, txFall := true })
     (x.port! 0).txFall = true ∧ x.txSrcOk 0 = true) := by decide
theorem wit_NvmGate : (let d := { wt dv 0x20 [] with nvm := { writing := some (1, 0), shut := true } }
    d.nvm.writing = some (1, 0) ∧ d.nvm.saveDue = false ∧ d.nvm.shut = true ∧
    nxt (.writeEnd .crcBad) (sv d) (fun t => (t.dev.slot 0).any (fun s => s.ended == some (0x14, 0, 1000000))) = true) ∧
    (let d := { wt dv 0x20 [] with nvm := { writing := some (1, 0) } }
     d.nvm.shut = false ∧ nxt (.writeEnd .gateClosed) (sv d) (fun t => t.dev.nvm.writing == some (1, 0)) = true) := by decide
theorem wit_IrigDisagrees : (let d := dt 2 { st := .locked, lastEdge := 16000000, haveEdge := true }
    let g := { fr with sec := 9 }
    d.src = 2 ∧ Dev.irigBad g = false ∧ d.irigFar g = false ∧ d.irigDis g ≠ 0 ∧ d.locus.disagree = none ∧
    nxt (.irigFrame g) (sv d) (fun t => t.dev.locus.disagree == some (d.irigDis g) && t.dev.locus.irigErr == 0) = true) ∧
    (let d := dt 2 { st := .locked, lastEdge := 16000000, haveEdge := true, offset := ux 64 1704067200000000000 }
     d.irigFar fr = false ∧ d.irigDis fr = 0 ∧
     nxt (.irigFrame fr) (sv d) (fun t => t.dev.locus.disagree == none && t.dev.locus.srcTq == 15) = true) := by decide +kernel
theorem wit_VertexWithoutLatch : (let d := { dr with vLat := false, vcell := [(0, ({ g := 7 } : VCell))] }
    d.stage = .run ∧ d.vLat = false ∧ nxt (.vertexPublish 5) (sv d) (fun t => (t.dev.vc 0).g == 0 && !t.dev.vRun) = true) ∧
    ({ ds with vLat := true } : Dev).vLat = true ∧ ({ ds with vLat := true } : Dev).stage = .run := by decide +kernel
theorem wit_HelloType : nxt (.helloId 3 5 2) (sv (dl .down)) (fun t => (t.dev.lk 3).nodeType == 5) = true ∧
    (let d := (dl .active).updLink 3 (fun l => { l with echoReq := some (4, 1000), echoes := [900], delay := 7200, asymF := 4 })
     (d.lk 3).asymF ≠ d.asym 3) := by decide

end Sys2Proof.Tests
end

section
/-! The time base (R31, R32): which commands reach past the device, what they leave of the clock, and what one edge of
REFCLK adds to it. -/

namespace Sys2Proof.Machine

/-- Every command acts on the device alone, but SUBMIT, COMPLETION, the writes of BAR2 and the power-on reset. -/
theorem exec_withDev_or_beyond (c : Instr) (s : State) :
    (∃ d, exec c s = .next (s.withDev d)) ∨ (∃ port, c = .submit port) ∨ c = .completion ∨ (∃ rq w, c = .cqHead rq w) ∨
      (∃ rq off w whole, c = .registerWrite rq (.bar2 off) w whole) ∨ c = .powerOnReset ∨
      ∃ refclk, c = .powerOnResetRelease refclk := by
  cases c with
  | submit => simp
  | completion => simp
  | cqHead => simp
  | powerOnReset => simp
  | powerOnResetRelease => simp
  | registerWrite rq t w whole =>
    cases t with
    | bar0 page off => exact .inl ⟨_, rfl⟩
    | bar2 off => simp
  | _ => exact .inl ⟨_, rfl⟩

@[simp] theorem submitTo_clk (s : State) (port : Nat) : (submitTo s port).clk = s.clk := by
  unfold submitTo
  dsimp only
  split
  · rfl
  · split
    · rfl
    · split <;> rfl

@[simp] theorem complete_clk (s : State) : (complete s).clk = s.clk := by
  unfold complete
  split
  · rfl
  · split
    · rfl
    · split
      · split <;> rfl
      · rfl

@[simp] theorem bar2Write_clk (s : State) (rq : Req) (off w : Nat) (whole : Bool) :
    (bar2Write s rq off w whole).clk = s.clk := by
  unfold bar2Write
  split
  · rfl
  · split <;> rfl

/-- No command but the release of the power-on reset writes or steps the clock (R31). -/
theorem exec_clk {c : Instr} {s t : State} (hc : ∀ refclk, c ≠ .powerOnResetRelease refclk) (h : exec c s = .next t) :
    t.clk = s.clk := by
  obtain ⟨d, hd⟩ | ⟨port, rfl⟩ | rfl | ⟨rq, w, rfl⟩ | ⟨rq, off, w, whole, rfl⟩ | rfl | ⟨refclk, rfl⟩ :=
    exec_withDev_or_beyond c s
  · rw [hd] at h
    cases h
    rfl
  · cases h
    exact submitTo_clk s port
  · cases h
    exact complete_clk s
  · cases h
    exact bar2Write_clk s rq _ _ _
  · cases h
    exact bar2Write_clk s rq off _ whole
  · cases h
    rfl
  · exact absurd rfl (hc refclk)

/-- The release starts the clock from 0 (R31). -/
theorem exec_powerOnResetRelease {s : State} (refclk : Bool) (h : s.dev.boot.por = true) :
    exec (.powerOnResetRelease refclk) s = .next { s with clk := {}, dev := s.dev.powerRelease refclk } := by
  change execPowerOnResetRelease refclk s = _
  simp [execPowerOnResetRelease, h]

/-- The device after an edge: below RUN the applied trim is at its target (R34). -/
def edgeDev (s : State) : Dev :=
  if s.dev.belowRun && s.dev.locus.trim != s.dev.locus.target then s.dev.applyTrim s.now s.dev.locus.target else s.dev

/-- What the accumulator holds at an edge before its carry is taken off, in units of 2^-32 ns (R32). -/
def edgeSum (s : State) : Int := (s.clk.frac.toNat : Int) + (edgeDev s).locus.trim

theorem refclkEdge_eq {s : State} (h : s.dev.boot.por = false) :
    refclkEdge s =
      { s with
        clk := { cnt := s.clk.cnt + BitVec.ofInt 64 (40 + edgeSum s / 2 ^ 32), frac := BitVec.ofInt 32 (edgeSum s) }
        dev := edgeDev s } := by
  simp [refclkEdge, h, edgeSum, edgeDev]

theorem edgeDev_trim (s : State) :
    (edgeDev s).locus.trim = if s.dev.belowRun then s.dev.locus.target else s.dev.locus.trim := by
  unfold edgeDev
  by_cases hr : s.dev.belowRun = true
  · by_cases ht : s.dev.locus.trim = s.dev.locus.target
    · simp [hr, ht]
    · simp [hr, ht, Dev.applyTrim]
  · simp [hr]

theorem edgeDev_of_trim_at_target {s : State} (h : s.dev.locus.trim = s.dev.locus.target) : edgeDev s = s.dev := by
  simp [edgeDev, h]

/-- The accumulator keeps the fraction: what is left of the sum when its carry is taken off. -/
theorem toNat_ofInt_frac (sum : Int) : ((BitVec.ofInt 32 sum).toNat : Int) = sum % 2 ^ 32 := by
  have hnn : 0 ≤ sum % 2 ^ 32 := Int.emod_nonneg _ (by decide)
  simpa [BitVec.toNat_ofInt] using hnn

/-- Under the limit of the trim the carry of the accumulator is at most one nanosecond either way (R32). -/
theorem carry_within_one {frac : BitVec 32} {trim : Int} (hlo : -34359738 ≤ trim) (hhi : trim ≤ 34359738) :
    let carry := ((frac.toNat : Int) + trim) / 2 ^ 32
    carry = -1 ∨ carry = 0 ∨ carry = 1 := by
  have hfrac := frac.isLt
  dsimp only
  omega

/-- So one edge advances the count by 39, 40 or 41 ns (R32). -/
theorem advance_39_to_41 {frac : BitVec 32} {trim : Int} (cnt : BitVec 64) (hlo : -34359738 ≤ trim)
    (hhi : trim ≤ 34359738) :
    let next := cnt + BitVec.ofInt 64 (40 + ((frac.toNat : Int) + trim) / 2 ^ 32)
    next = cnt + 39 ∨ next = cnt + 40 ∨ next = cnt + 41 := by
  dsimp only
  obtain hc | hc | hc := carry_within_one (frac := frac) hlo hhi <;> rw [hc]
  · exact .inl rfl
  · exact .inr (.inl rfl)
  · exact .inr (.inr rfl)

/-- Settles O2. The clock stands beside the device, and most commands act on the device alone; the few that reach past it
leave the clock too, so only the release and the edge of REFCLK move SYSCNT. -/
theorem syscntAdvancesOnlyWithReferenceEdges : Obligations.SyscntAdvancesOnlyWithReferenceEdges := by
  unfold Obligations.SyscntAdvancesOnlyWithReferenceEdges
  refine ⟨fun refclk s hpor => ⟨_, exec_powerOnResetRelease refclk hpor, rfl⟩, fun _ _ _ => exec_clk, fun s hpor => ?_⟩
  rw [refclkEdge_eq hpor, edgeSum, edgeDev_trim]
  exact ⟨rfl, rfl, edgeDev_trim s, rfl, toNat_ofInt_frac _, edgeDev_of_trim_at_target, advance_39_to_41 _⟩

end Sys2Proof.Machine
end

section
/-! The stored FIR output (R274): the products and their sum stay within the accumulator, and what saturating one to
24 bits counts and raises. -/

namespace Sys2Proof.Machine

theorem bit_setBit_true (w n : Nat) : bit (setBit w n true) n = true := by
  unfold setBit
  split
  case isTrue h => exact h
  case isFalse h =>
    simp only [bit, beq_iff_eq, if_true, Nat.add_div_right w (Nat.two_pow_pos n)] at h ⊢
    omega

/-- What saturation to 24 bits gives, its limits written out. -/
theorem satI_24 (v : Int) :
    satI 24 v = if v < -8388608 then -8388608 else if 8388607 < v then 8388607 else v := rfl

namespace Dev

@[simp] theorem chan_updChan_same (d : Dev) (k : Nat) (f : Chan → Chan) : (d.updChan k f).chan k = f (d.chan k) := by
  simp [chan, tupd]

theorem chan_updChan_ne {d : Dev} {k j : Nat} {f : Chan → Chan} (h : j ≠ k) : (d.updChan k f).chan j = d.chan j := by
  simp [chan, tupd, tget_tset_ne _ _ _ _ _ _ h]

@[simp] theorem pageOn_updChan (d : Dev) (k p : Nat) (f : Chan → Chan) : (d.updChan k f).pageOn p = d.pageOn p := rfl

@[simp] theorem pg_updPage_same (d : Dev) (p : Nat) (f : Page → Page) : (d.updPage p f).pg p = f (d.pg p) := by
  simp [pg, tupd]

@[simp] theorem pg_pageMsix (d : Dev) (p q : Nat) : (d.pageMsix p).pg q = d.pg q := by
  obtain ⟨b, hb⟩ := pageMsix_eq d p
  rw [hb]
  rfl

@[simp] theorem chan_raise (d : Dev) (p n k : Nat) : (d.raise p n).chan k = d.chan k := by
  obtain ⟨q, b, hr⟩ := raise_eq d p n
  rw [hr]
  rfl

/-- Raising an event of a page that is on sets its raw bit (R416). -/
theorem raise_raw {d : Dev} {p : Nat} (n : Nat) (h : d.pageOn p = true) : bit ((d.raise p n).pg p).raw n = true := by
  unfold raise
  rw [if_pos h]
  dsimp only
  split <;> simp [bit_setBit_true]

/-- A saturation counts on its own channel, whose other fields it leaves. -/
theorem chan_chanSat_same (d : Dev) (k : Nat) :
    (d.chanSat k).chan k = { d.chan k with sat := sat1 8 (d.chan k).sat } := by
  simp [chanSat]

theorem chan_chanSat_ne {d : Dev} {k j : Nat} (h : j ≠ k) : (d.chanSat k).chan j = d.chan j := by
  simp [chanSat, chan_updChan_ne h]

/-- A saturation raises PRISM's event 4. -/
theorem chanSat_raw {d : Dev} (k : Nat) (h : d.pageOn 0x28 = true) : bit ((d.chanSat k).pg 0x28).raw 4 = true :=
  raise_raw 4 ((pageOn_updChan d k 0x28 _).trans h)

end Dev

/-- The product of two 24-bit numbers is at most 2^46 in magnitude. -/
theorem mul_within_46 {a b : Int} (ha : -8388608 ≤ a ∧ a ≤ 8388607) (hb : -8388608 ≤ b ∧ b ≤ 8388607) :
    -(2 ^ 46 : Int) ≤ a * b ∧ a * b ≤ 2 ^ 46 := by
  have habs : |a| ≤ 2 ^ 23 ∧ |b| ≤ 2 ^ 23 := by
    simp only [abs_le]
    omega
  have hmul : |a * b| ≤ 2 ^ 23 * 2 ^ 23 := abs_mul a b ▸ mul_le_mul habs.1 habs.2 (abs_nonneg b) (by decide)
  exact abs_le.mp hmul

theorem map_mul_zip (h d : List Int) : (h.zip d).map (fun p => p.1 * p.2) = List.zipWith (fun a b => a * b) h d :=
  List.map_zip_eq_zipWith

/-- The products of 24-bit coefficients with 24-bit CIC outputs. -/
theorem zipWith_mul_within_46 {h d : List Int} (hh : ∀ x, x ∈ h → -8388608 ≤ x ∧ x ≤ 8388607)
    (hd : ∀ x, x ∈ d → -8388608 ≤ x ∧ x ≤ 8388607) :
    ∀ p, p ∈ List.zipWith (fun a b => a * b) h d → -(2 ^ 46 : Int) ≤ p ∧ p ≤ 2 ^ 46 := by
  intro p hp
  rw [← map_mul_zip, List.mem_map] at hp
  obtain ⟨⟨a, b⟩, hab, rfl⟩ := hp
  obtain ⟨ha, hb⟩ := List.of_mem_zip hab
  exact mul_within_46 (hh a ha) (hd b hb)

/-- At most n terms of magnitude at most m sum to at most n times m. -/
theorem sum_within {l : List Int} {n : Nat} {m : Int} (hm : 0 ≤ m) (hn : l.length ≤ n) (hl : ∀ p, p ∈ l → -m ≤ p ∧ p ≤ m) :
    -(n * m) ≤ l.sum ∧ l.sum ≤ n * m := by
  have hlo : l.length • -m ≤ l.sum := List.card_nsmul_le_sum l (-m) fun p hp => (hl p hp).1
  have hhi : l.sum ≤ l.length • m := List.sum_le_card_nsmul l m fun p hp => (hl p hp).2
  have hlen : (l.length : Int) * m ≤ n * m := mul_le_mul_of_nonneg_right (by exact_mod_cast hn) hm
  simp only [nsmul_eq_mul] at hlo hhi
  constructor <;> linarith

/-- The stored sum is the exact one with the half added, shifted right by 23. -/
theorem firSum_eq (h d : List Int) :
    firSum h d = ((List.zipWith (fun a b => a * b) h d).foldl (fun a b => a + b) 0 + 2 ^ 22) / 2 ^ 23 := by
  rw [firSum, map_mul_zip]
  rfl

/-- Settles O53. The accumulator holds at most 384 products of two 24-bit numbers; a result that saturation changes is one
`chanSat` of its channel, and any other leaves the device. -/
theorem firOutputIsTheSaturatedSum : Obligations.FirOutputIsTheSaturatedSum := by
  unfold Obligations.FirOutputIsTheSaturatedSum
  refine ⟨fun h d hlen hh hd => ?_, fun d k r => ?_⟩
  · have hp := zipWith_mul_within_46 hh hd
    have hn : (List.zipWith (fun a b => a * b) h d).length ≤ 384 := by
      rw [List.length_zipWith]
      omega
    obtain ⟨hlo, hhi⟩ := sum_within (by decide) hn hp
    rw [List.sum_eq_foldl] at hlo hhi
    exact ⟨hp, hlo, hhi, firSum_eq h d⟩
  · dsimp only
    rw [← satI_24]
    refine ⟨rfl, fun hy => if_pos hy, fun hy => ?_⟩
    have hd : (d.firOne k r).2 = d.chanSat k := if_neg hy
    rw [hd, Dev.chan_chanSat_same]
    exact ⟨rfl, rfl, fun j hj => Dev.chan_chanSat_ne hj, Dev.chanSat_raw k⟩

end Sys2Proof.Machine
end

section
/-! Words with given bits: what `setBit` and `ofBits` do to each bit of a word. -/

namespace Sys2Proof.Machine

theorem bit_eq_testBit (w n : Nat) : bit w n = w.testBit n := by
  rw [Nat.testBit_eq_decide_div_mod_eq]
  rfl

/-- Adding 2^n to a word whose bit n is clear carries into no higher bit. -/
theorem bit_add_two_pow_above {w n m : Nat} (hclear : bit w n = false) (h : n < m) : bit (w + 2 ^ n) m = bit w m := by
  obtain ⟨k, rfl⟩ := Nat.exists_eq_add_of_lt h
  have heven : w / 2 ^ n % 2 = 0 := by simpa [bit] using hclear
  have hhalf : (w / 2 ^ n + 1) / 2 = w / 2 ^ n / 2 := by omega
  have hpow : 2 ^ (n + k + 1) = 2 ^ n * 2 * 2 ^ k := by ring
  simp only [bit, hpow, ← Nat.div_div_eq_div_mul, Nat.add_div_right w (Nat.two_pow_pos n), hhalf]

/-- Setting a bit leaves every other bit. -/
theorem bit_setBit_true_ne {w n m : Nat} (h : m ≠ n) : bit (setBit w n true) m = bit w m := by
  unfold setBit
  split
  case isTrue => rfl
  case isFalse hclear =>
    rw [if_pos rfl]
    rcases Nat.lt_or_gt_of_ne h with hlt | hgt
    · rw [bit_eq_testBit, bit_eq_testBit, Nat.add_comm, Nat.testBit_two_pow_add_gt hlt]
    · exact bit_add_two_pow_above (Bool.eq_false_of_not_eq_true hclear) hgt

theorem bit_foldl_setBit (l : List Nat) (w n : Nat) :
    bit (l.foldl (fun a i => setBit a i true) w) n = (bit w n || decide (n ∈ l)) := by
  induction l generalizing w with
  | nil => simp
  | cons i r ih =>
    rw [List.foldl_cons, ih]
    by_cases h : n = i
    · simp [h, bit_setBit_true]
    · simp [h, bit_setBit_true_ne h]

/-- The word of a list of bits has exactly those bits. -/
theorem bit_ofBits (l : List Nat) (n : Nat) : bit (ofBits l) n = decide (n ∈ l) := by
  rw [ofBits, bit_foldl_setBit]
  simp [bit]

theorem mem_onBits {k w n : Nat} : n ∈ onBits k w ↔ n < k ∧ bit w n = true := by simp [onBits]

/-- Write-1-to-clear on k bits: a bit stays where it stood and no 1 was written to it. -/
theorem bit_cleared {k n : Nat} (v w : Nat) (h : n < k) :
    bit (ofBits ((onBits k v).filter (fun i => !bit w i))) n = (bit v n && !bit w n) := by
  rw [bit_ofBits]
  simp [List.mem_filter, mem_onBits, h]

end Sys2Proof.Machine
end

section
/-! Accepted register writes: which checks one has passed, and what it leaves in the register table. -/

namespace Sys2Proof.Machine

theorem whenR_eq_nil {c : Bool} {r : Nat} : whenR c r = [] ↔ c = false := by cases c <;> simp [whenR]

/-- A field with one range takes the values in it. -/
theorem fIn_takes {hi lo lower upper w : Nat} {a : Acc} :
    (fIn hi lo a lower upper).takes w = true ↔ lower ≤ bits w hi lo ∧ bits w hi lo ≤ upper := by
  change (decide (lower ≤ bits w hi lo) && decide (bits w hi lo ≤ upper) || false) = true ↔ _
  simp

theorem foldl_ne_none {α β : Type} {f : Option β → α → Option β} (hf : ∀ o a, f o a ≠ none) {l : List α}
    (hl : l ≠ []) (o : Option β) : l.foldl f o ≠ none := by
  obtain ⟨r, a, rfl⟩ := (List.eq_nil_or_concat l).resolve_left hl
  rw [List.concat_eq_append, List.foldl_append]
  exact hf _ a

namespace Dev

/-- A write is accepted where no reason against it applies (R452). -/
theorem refusal_eq_none_iff {d : Dev} {now p o w : Nat} {rq : Req} {whole : Bool} :
    d.refusal now rq p o w whole = none ↔ d.reasons now rq p o w whole = [] := by
  unfold refusal
  refine ⟨fun h => ?_, fun h => by rw [h]; rfl⟩
  by_contra hne
  exact foldl_ne_none (fun a _ => by cases a <;> simp) hne none h

/-- The checks of a whole write of a register of its own: it is accepted where it passes every one (R405, R452). -/
theorem refusal_own_eq_none_iff {d : Dev} {now p o w : Nat} {rq : Req} {x : Hit} (hc : commonOff o = false)
    (hf : findReg p o = some x) :
    d.refusal now rq p o w true = none ↔
      d.pageTakes rq p = true ∧ (rq = .qspi → qspiOk p o = true) ∧ d.checkAccess rq x o w = [] ∧
        (rq ≠ .load → d.stageTakes p o = true) ∧ d.checkCore now rq x o w = [] ∧ d.checkDrive x o w = [] ∧
        d.checkCtl rq x o w = [] ∧ d.checkMeas x o w = [] ∧ d.checkModel x o w = [] := by
  rw [refusal_eq_none_iff, reasons]
  by_cases hp : d.pageTakes rq p = true
  · simp [hp, hc, hf, whenR_eq_nil]
  · simp [hp]

/-- A write that passes the access codes sets no bit outside the named fields and gives each field a value it takes
(R6, Table 0.3). -/
theorem takes_of_checkAccess {d : Dev} {rq : Req} {x : Hit} {o w : Nat} (h : d.checkAccess rq x o w = []) :
    x.row.reserved w = false ∧ ∀ f ∈ x.row.writable, f.takes w = true := by
  simp only [checkAccess, List.append_eq_nil_iff, whenR_eq_nil, Bool.or_eq_false_iff, List.any_eq_false] at h
  obtain ⟨⟨_, hres, htakes⟩, _⟩ := h
  exact ⟨hres, fun f hf => by simpa using htakes f hf⟩

/-- Writing one register leaves the contents of every other. -/
theorem rd_wr_ne {d : Dev} {p o p' o' : Nat} (v : Nat) (h : p' * 4096 + o' ≠ p * 4096 + o) :
    (d.wr p o v).rd p' o' = d.rd p' o' :=
  congrArg BitVec.toNat (tget_tset_ne _ _ _ _ _ _ h)

/-- An accepted write of a HULL register beside CFG holds its value and acts. -/
theorem busWrite_hull {d : Dev} {now o w : Nat} {rq : Req} {x : Hit} (h : d.refusal now rq 2 o w true = none)
    (hc : commonOff o = false) (hf : findReg 2 o = some x) (hcfg : o ≠ 0x20) :
    d.busWrite now rq 2 o w true =
      (d.wr 2 o (d.merged rq x o w)).regEffect now x o w (d.merged rq x o w) (d.rd 2 o) := by
  have hheld : heldElse 2 o = false := by simp [heldElse]
  rw [busWrite_own h hc hf]
  simp [writeReg, findReg_page hf, hheld, hcfg]

end Dev
end Sys2Proof.Machine
end

section
/-! The registers CAUSE and CONSENT of HULL (R383, R386). -/

namespace Sys2Proof.Machine

/-- CAUSE in the register table. -/
def causeReg : Hit := ⟨reg 2 0x28 0 [fAny 11 0 .w1c], 2, 0, 0⟩
/-- CONSENT in the register table. -/
def consentReg : Hit := ⟨reg 2 0x6C 0 [fIn 15 0 .wo 0xA5C3 0xA5C3], 2, 0, 0⟩

theorem findReg_cause : findReg 2 0x28 = some causeReg := rfl
theorem findReg_consent : findReg 2 0x6C = some consentReg := rfl

/-- A word that CONSENT takes is 0xA5C3. -/
theorem consentReg_takes {w : Nat} (hres : consentReg.row.reserved w = false)
    (htakes : ∀ f ∈ consentReg.row.writable, f.takes w = true) : w = 0xA5C3 := by
  have hlow : bits w 15 0 = 0xA5C3 :=
    le_antisymm_iff.mpr (fIn_takes.mp (htakes (fIn 15 0 .wo 0xA5C3 0xA5C3) (by decide))).symm
  have hhigh : w < 65536 := by simpa [consentReg, reg, Row.reserved, putBits, fIn, Nat.mod_one] using hres
  rw [bits] at hlow
  omega

namespace Dev

/-- CAUSE is no register of QSPI; the causes that still stand are not cleared (R383). -/
theorem causeClear_accepted {d : Dev} {now w : Nat} {rq : Req} (h : d.refusal now rq 2 0x28 w true = none) :
    rq ≠ .qspi ∧ ¬(bit w 6 = true ∧ d.hull.safeN = true) ∧ ¬(bit w 8 = true ∧ d.locus.refOk = false) ∧
      ¬(bit w 7 = true ∧ d.boot.stage = .cooldown) := by
  obtain ⟨_, hqspi, _, _, hcore, _⟩ := (refusal_own_eq_none_iff (by decide) findReg_cause).mp h
  refine ⟨fun hq => absurd (hqspi hq) (by decide), ?_⟩
  simpa [checkCore, causeReg, whenR_eq_nil, stage, and_assoc] using hcore

/-- CONSENT is accepted over QSPI alone, and with 0xA5C3 alone (R386). -/
theorem consent_accepted {d : Dev} {now : Nat} {rq : Req} {w : Word}
    (h : d.refusal now rq 2 0x6C w.toNat true = none) : rq = .qspi ∧ w = 0xA5C3 := by
  obtain ⟨_, _, haccess, _, hcore, _⟩ := (refusal_own_eq_none_iff (by decide) findReg_consent).mp h
  obtain ⟨hres, htakes⟩ := takes_of_checkAccess haccess
  refine ⟨?_, BitVec.eq_of_toNat_eq (consentReg_takes hres htakes)⟩
  simpa [checkCore, consentReg, whenR_eq_nil] using hcore

theorem regEffect_cause (d : Dev) (now w v old : Nat) :
    d.regEffect now causeReg 0x28 w v old =
      d.modHull (fun h => { h with cause := ofBits ((onBits 12 h.cause).filter (fun n => !bit w n)) }) := rfl

theorem regEffect_consent (d : Dev) (now w v old : Nat) :
    d.regEffect now consentReg 0x6C w v old = d.modHull (fun h => { h with consent := some (now + 1000000000) }) := rfl

/-- While an expiry is set, CONSENT_OK is 1 before it where CONSENT_REQ is 1 (R386). -/
theorem consentOk_modHull_some (d : Dev) (at' expiry : Nat) :
    (d.modHull (fun h => { h with consent := some expiry })).consentOk at' =
      (d.flag 2 0x20 31 && decide (at' < expiry)) := rfl

end Dev

theorem exec_causeClear {rq : Req} {w : Word} {s : State} (h : s.dev.refusal s.now rq 2 0x28 w.toNat true = none) :
    exec (.causeClear rq w) s = .next (s.withDev ((s.dev.wr 2 0x28 (s.dev.merged rq causeReg 0x28 w.toNat)).modHull
      (fun x => { x with cause := ofBits ((onBits 12 s.dev.hull.cause).filter (fun n => !bit w.toNat n)) }))) := by
  change onDev s (fun t d => d.busWrite t rq 2 0x28 w.toNat true) = _
  rw [onDev_eq, Dev.busWrite_hull h (by decide) findReg_cause (by decide), Dev.regEffect_cause]
  rfl

theorem exec_consent {rq : Req} {w : Word} {s : State} (h : s.dev.refusal s.now rq 2 0x6C w.toNat true = none) :
    exec (.consent rq w) s = .next (s.withDev ((s.dev.wr 2 0x6C (s.dev.merged rq consentReg 0x6C w.toNat)).modHull
      (fun x => { x with consent := some (s.now + 1000000000) }))) := by
  change onDev s (fun t d => d.busWrite t rq 2 0x6C w.toNat true) = _
  rw [onDev_eq, Dev.busWrite_hull h (by decide) findReg_consent (by decide), Dev.regEffect_consent]

/-- Settles O21. An accepted write replaces the causes by those that stood and were not written 1; a write that the last
two clauses name has not passed the checks. -/
theorem causeClearsOverPcieAlone : Obligations.CauseClearsOverPcieAlone := by
  unfold Obligations.CauseClearsOverPcieAlone
  intro rq w s
  refine ⟨fun h => ⟨_, _, exec_causeClear h, fun n hn => bit_cleared _ _ hn, fun _ => rfl⟩,
    fun h => (Dev.causeClear_accepted h).1 rfl, fun hstands h => ?_⟩
  obtain ⟨_, hsafe, href, htsd⟩ := Dev.causeClear_accepted h
  obtain h6 | h8 | h7 := hstands
  · exact hsafe h6
  · exact href h8
  · exact htsd h7

/-- Settles O22. An accepted write sets the expiry 1,000 ms on and changes no register beside CONSENT, CONSENT_REQ among
those it leaves. -/
theorem consentRunsOneSecond : Obligations.ConsentRunsOneSecond := by
  unfold Obligations.ConsentRunsOneSecond
  intro rq w s
  refine ⟨fun h => ⟨_, exec_consent h, rfl, rfl, rfl, fun at' => ?_, fun p o hne => Dev.rd_wr_ne _ hne, rfl, rfl⟩,
    fun hrq h => hrq (Dev.consent_accepted h).1, fun hw h => hw (Dev.consent_accepted h).2⟩
  rw [Dev.consentOk_modHull_some, Dev.flag, Dev.rd_wr_ne _ (by decide)]
  rfl

end Sys2Proof.Machine
end

section
/-! Steps, reset and the completion ring (R31, R409, R412): which commands reach the ring, and that each of them keeps
it legal. -/

namespace Sys2Proof.Machine

/-- Settles O1. `step` is the case split on the queue that the statement speaks of. -/
theorem stepRunsFrontCommand : Obligations.StepRunsFrontCommand := by
  unfold Obligations.StepRunsFrontCommand step
  refine ⟨fun c r s h => ?_, fun s h => ?_⟩ <;> rw [h]

theorem dev_reset_rd (p o : Nat) : State.reset.dev.rd p o = rstAt (p * 4096 + o) % 2 ^ 32 := rfl

/-- Settles O3. Every table of the state after reset is empty, so each read answers its default. -/
theorem resetLeavesSpecValues : Obligations.ResetLeavesSpecValues := by
  unfold Obligations.ResetLeavesSpecValues
  exact ⟨rfl, rfl, fun _ => rfl, rfl, rfl, rfl, rfl, rfl, fun _ => rfl, rfl, dev_reset_rd⟩

theorem Ring.inv_empty : Ring.Inv {} := by simp [Ring.Inv]

/-- Settles O4. -/
theorem ringLegalAtReset : Obligations.RingLegalAtReset := Ring.inv_empty

/-- CMD:SEQ goes on within 1 to 2,047 (R409). -/
theorem Ring.inv_seqNext {r : Ring} (h : r.Inv) : ({ r with seq := seqNext r.seq } : Ring).Inv := by
  obtain ⟨hlo, hhi, hrest⟩ := h
  refine ⟨?_, ?_, hrest⟩ <;> · simp only [seqNext]; split <;> omega

/-- An entry more, while fewer than 63 are unread (R412). -/
theorem Ring.inv_put {r : Ring} (e : CqEntry) (h : r.Inv) (hroom : r.unread < 63) : (r.put e).Inv := by
  obtain ⟨hlo, hhi, hhead, htail, hunread, hspan⟩ := h
  refine ⟨hlo, hhi, hhead, Nat.mod_lt _ (by decide), ?_, ?_⟩ <;> simp only [Ring.put] <;> omega

/-- A new head that releases no more entries than are unread (R412). -/
theorem Ring.inv_head {r : Ring} {w : Nat} (h : r.Inv) (hw : w < 64) (hread : (w + 64 - r.head) % 64 ≤ r.unread) :
    ({ r with head := w, unread := r.unread - (w + 64 - r.head) % 64 } : Ring).Inv := by
  obtain ⟨hlo, hhi, hhead, htail, hunread, hspan⟩ := h
  refine ⟨hlo, hhi, hw, htail, ?_, ?_⟩ <;> dsimp only <;> omega

/-- SUBMIT leaves the ring or takes a sequence number (R408, R409). -/
theorem submitTo_ring (s : State) (port : Nat) :
    (submitTo s port).ring = s.ring ∨ (submitTo s port).ring = { s.ring with seq := seqNext s.ring.seq } := by
  unfold submitTo
  dsimp only
  split
  · exact .inl rfl
  · split
    · exact .inl rfl
    · split
      · exact .inl rfl
      · exact .inr rfl

/-- COMPLETION leaves the ring or writes one entry where there is room for it (R412). -/
theorem complete_ring (s : State) :
    (complete s).ring = s.ring ∨ (s.ring.unread < 63 ∧ ∃ e, (complete s).ring = s.ring.put e) := by
  unfold complete
  split
  · exact .inl rfl
  · split
    · exact .inl rfl
    · next hroom =>
      split
      · split
        · exact .inr ⟨by omega, _, rfl⟩
        · exact .inl rfl
      · exact .inl rfl

/-- A BAR2 write that is accepted at CQ_HEAD names a head within the entries written (R412). -/
theorem bar2Refusal_head {d : Dev} {r : Ring} {rq : Req} {off w : Nat} {whole : Bool} (hk : bar2Kind off = .head)
    (h : bar2Refusal d r rq off w whole = none) : w < 64 ∧ (w + 64 - r.head) % 64 ≤ r.unread := by
  simp only [bar2Refusal, hk] at h
  grind

/-- Only CQ_HEAD is a BAR2 register that moves the head. -/
theorem bar2Kind_eq_head {off : Nat} (h : bar2Kind off = .head) : off = 0x1404 := by
  unfold bar2Kind at h
  grind

/-- A BAR2 write leaves the ring, or is one of CQ_HEAD and moves the head within the entries written (R412). -/
theorem bar2Write_ring (s : State) (rq : Req) (off w : Nat) (whole : Bool) :
    (bar2Write s rq off w whole).ring = s.ring ∨
      (off = 0x1404 ∧ w < 64 ∧ (w + 64 - s.ring.head) % 64 ≤ s.ring.unread ∧
        (bar2Write s rq off w whole).ring =
          { s.ring with head := w, unread := s.ring.unread - (w + 64 - s.ring.head) % 64 }) := by
  unfold bar2Write
  split
  · exact .inl rfl
  · next haccepted =>
    split
    · exact .inl rfl
    · exact .inl rfl
    · next hk =>
      obtain ⟨hw, hread⟩ := bar2Refusal_head hk haccepted
      exact .inr ⟨bar2Kind_eq_head hk, hw, hread, rfl⟩
    · exact .inl rfl
    · exact .inl rfl

theorem bar2Write_ring_inv {s : State} (rq : Req) (off w : Nat) (whole : Bool) (h : s.ring.Inv) :
    (bar2Write s rq off w whole).ring.Inv := by
  obtain hr | ⟨_, hw, hread, hr⟩ := bar2Write_ring s rq off w whole <;> rw [hr]
  · exact h
  · exact Ring.inv_head h hw hread

/-- Every command keeps the ring legal (R409, R412). -/
theorem exec_ring_inv {c : Instr} {s t : State} (h : s.ring.Inv) (he : exec c s = .next t) : t.ring.Inv := by
  obtain ⟨d, hd⟩ | ⟨port, rfl⟩ | rfl | ⟨rq, w, rfl⟩ | ⟨rq, off, w, whole, rfl⟩ | rfl | ⟨refclk, rfl⟩ :=
    exec_withDev_or_beyond c s
  · rw [hd] at he
    cases he
    exact h
  · cases he
    obtain hr | hr := submitTo_ring s port <;> rw [hr]
    · exact h
    · exact Ring.inv_seqNext h
  · cases he
    obtain hr | ⟨hroom, e, hr⟩ := complete_ring s <;> rw [hr]
    · exact h
    · exact Ring.inv_put e h hroom
  · cases he
    exact bar2Write_ring_inv rq _ _ _ h
  · cases he
    exact bar2Write_ring_inv rq off _ whole h
  · cases he
    exact Ring.inv_empty
  · cases he
    split <;> exact h

theorem refclkEdge_ring (s : State) : (refclkEdge s).ring = s.ring := by
  unfold refclkEdge
  split <;> rfl

/-- Settles O5. Every command keeps the ring legal, and an edge of REFCLK leaves it. -/
theorem stepKeepsRingLegal : Obligations.StepKeepsRingLegal := by
  unfold Obligations.StepKeepsRingLegal
  intro s t hinv hstep
  unfold step at hstep
  split at hstep
  · cases hstep
    rwa [refclkEdge_ring]
  · next c r _ =>
    have hrest : Ring.Inv ({ s with pending := r } : State).ring := hinv
    exact exec_ring_inv hrest hstep

@[simp] theorem submitTo_pending (s : State) (port : Nat) : (submitTo s port).pending = s.pending := by
  unfold submitTo
  dsimp only
  split
  · rfl
  · split
    · rfl
    · split <;> rfl

@[simp] theorem complete_pending (s : State) : (complete s).pending = s.pending := by
  unfold complete
  split
  · rfl
  · split
    · rfl
    · split
      · split <;> rfl
      · rfl

@[simp] theorem bar2Write_pending (s : State) (rq : Req) (off w : Nat) (whole : Bool) :
    (bar2Write s rq off w whole).pending = s.pending := by
  unfold bar2Write
  split
  · rfl
  · split <;> rfl

/-- Every command completes and leaves the queue. -/
theorem exec_next (c : Instr) (s : State) : ∃ t, exec c s = .next t ∧ t.pending = s.pending := by
  obtain ⟨d, hd⟩ | ⟨port, rfl⟩ | rfl | ⟨rq, w, rfl⟩ | ⟨rq, off, w, whole, rfl⟩ | rfl | ⟨refclk, rfl⟩ :=
    exec_withDev_or_beyond c s
  · exact ⟨_, hd, rfl⟩
  · exact ⟨_, rfl, submitTo_pending s port⟩
  · exact ⟨_, rfl, complete_pending s⟩
  · exact ⟨_, rfl, bar2Write_pending s rq _ _ _⟩
  · exact ⟨_, rfl, bar2Write_pending s rq off _ whole⟩
  · exact ⟨_, rfl, rfl⟩
  · refine ⟨_, rfl, ?_⟩
    split <;> rfl

/-- A BAR2 write beside CQ_HEAD leaves the ring. -/
theorem bar2Write_ring_of_ne {s : State} {rq : Req} {off w : Nat} {whole : Bool} (h : off ≠ 0x1404) :
    (bar2Write s rq off w whole).ring = s.ring :=
  (bar2Write_ring s rq off w whole).resolve_right fun hhead => h hhead.1

/-- The ring changes only by SUBMIT, COMPLETION, a write of CQ_HEAD and the power-on reset (R409, R412). -/
theorem exec_ring {c : Instr} {s t : State} (h : exec c s = .next t) (hsub : ∀ p, c ≠ .submit p)
    (hcompl : c ≠ .completion) (hhead : ∀ rq w, c ≠ .cqHead rq w) (hpor : c ≠ .powerOnReset)
    (hbar2 : ∀ rq w whole, c ≠ .registerWrite rq (.bar2 0x1404) w whole) : t.ring = s.ring := by
  obtain ⟨d, hd⟩ | ⟨port, rfl⟩ | rfl | ⟨rq, w, rfl⟩ | ⟨rq, off, w, whole, rfl⟩ | rfl | ⟨refclk, rfl⟩ :=
    exec_withDev_or_beyond c s
  · rw [hd] at h
    cases h
    rfl
  · exact absurd rfl (hsub port)
  · exact absurd rfl hcompl
  · exact absurd rfl (hhead rq w)
  · cases h
    exact bar2Write_ring_of_ne fun hoff => hbar2 rq w whole (by rw [hoff])
  · exact absurd rfl hpor
  · cases h
    split <;> rfl

/-- Settles O6. Every command but five kinds and the release acts on the device alone; those are looked at one by one. -/
theorem everyCommandCompletesAndFewChangeTheRing : Obligations.EveryCommandCompletesAndFewChangeTheRing := by
  unfold Obligations.EveryCommandCompletesAndFewChangeTheRing
  refine ⟨fun c s => ?_, fun c s t => exec_ring⟩
  obtain ⟨t, he, hpending⟩ := exec_next c s
  exact ⟨t, he, hpending, fun hc => exec_clk hc he⟩

end Sys2Proof.Machine
end

section
/-! What raising an event changes (R416, R417): one bit of one page, and the messages that follow. -/

namespace Sys2Proof.Machine
namespace Dev

theorem pg_updPage_ne {d : Dev} {p q : Nat} {f : Page → Page} (h : q ≠ p) : (d.updPage p f).pg q = d.pg q :=
  tget_tset_ne _ _ _ _ _ _ h

/-- The page of an event that is raised gets its bit; no other page changes (R416). -/
theorem pg_raise_same {d : Dev} {p : Nat} (n : Nat) (h : d.pageOn p = true) :
    (d.raise p n).pg p = { d.pg p with raw := setBit (d.pg p).raw n true } := by
  unfold raise
  rw [if_pos h]
  dsimp only
  split <;> simp

theorem pg_raise_ne {d : Dev} {p q : Nat} (n : Nat) (h : q ≠ p) : (d.raise p n).pg q = d.pg q := by
  unfold raise
  dsimp only
  split
  · split <;> simp [pg_updPage_ne h]
  · rfl

/-- Of the bus, a message changes only what was sent and what is recorded as pending (R417). -/
theorem msixSend_bus (d : Dev) (v : Nat) :
    ∃ pba sent, d.msixSend v = { d with bus := { d.bus with pba := pba, sent := sent } } := by
  unfold msixSend
  split
  · split
    · exact ⟨_, _, rfl⟩
    · exact ⟨_, _, rfl⟩
  · exact ⟨_, _, rfl⟩

theorem pageMsix_bus (d : Dev) (p : Nat) :
    ∃ pba sent, d.pageMsix p = { d with bus := { d.bus with pba := pba, sent := sent } } := by
  unfold pageMsix
  dsimp only
  split
  · exact msixSend_bus d _
  · exact ⟨_, _, rfl⟩

/-- Raising an event changes the pages' events, the messages sent and those pending, and nothing else (R416, R417). -/
theorem raise_frame (d : Dev) (p n : Nat) :
    ∃ q pba sent, d.raise p n = { d with pages := q, bus := { d.bus with pba := pba, sent := sent } } := by
  unfold raise
  dsimp only
  split
  · split
    · obtain ⟨pba, sent, h⟩ := pageMsix_bus (d.updPage p (fun q => { q with raw := setBit q.raw n true })) p
      exact ⟨_, pba, sent, h⟩
    · exact ⟨_, _, _, rfl⟩
  · exact ⟨_, _, _, rfl⟩

section
variable (d : Dev) (p n : Nat)

@[simp] theorem raise_regs : (d.raise p n).regs = d.regs := by
  obtain ⟨q, pba, sent, h⟩ := raise_frame d p n; rw [h]
@[simp] theorem raise_slots : (d.raise p n).bus.slots = d.bus.slots := by
  obtain ⟨q, pba, sent, h⟩ := raise_frame d p n; rw [h]
@[simp] theorem raise_slot (m : Nat) : (d.raise p n).slot m = d.slot m := by
  simp [slot]
@[simp] theorem raise_waiting : (d.raise p n).bus.waiting = d.bus.waiting := by
  obtain ⟨q, pba, sent, h⟩ := raise_frame d p n; rw [h]
@[simp] theorem raise_ended : (d.raise p n).bus.ended = d.bus.ended := by
  obtain ⟨q, pba, sent, h⟩ := raise_frame d p n; rw [h]
@[simp] theorem raise_refused : (d.raise p n).bus.refused = d.bus.refused := by
  obtain ⟨q, pba, sent, h⟩ := raise_frame d p n; rw [h]

end

end Dev

/-- Settles O11. -/
theorem raiseSetsOneEventBit : Obligations.RaiseSetsOneEventBit := by
  unfold Obligations.RaiseSetsOneEventBit
  refine fun d p n => ⟨fun hon => ⟨Dev.raise_raw n hon, fun m hm => ?_⟩, fun q hq => Dev.pg_raise_ne n hq, Dev.raise_off⟩
  rw [Dev.pg_raise_same n hon]
  exact bit_setBit_true_ne hm

end Sys2Proof.Machine
end

section
/-! Submission, completion and CQ_HEAD (R408, R409, R412). -/

namespace Sys2Proof.Machine
namespace Dev

@[simp] theorem answered_respPcie (d : Dev) (l : List Nat) : (d.answered .pcie l).bus.respPcie = l := rfl
@[simp] theorem answered_regs (d : Dev) (rq : Req) (l : List Nat) : (d.answered rq l).regs = d.regs := rfl
@[simp] theorem answered_slot (d : Dev) (rq : Req) (l : List Nat) (n : Nat) : (d.answered rq l).slot n = d.slot n := by
  unfold answered slot
  simp only [modBus_bus]
  split <;> rfl
@[simp] theorem answered_waiting (d : Dev) (rq : Req) (l : List Nat) : (d.answered rq l).bus.waiting = d.bus.waiting := by
  unfold answered
  simp only [modBus_bus]
  split <;> rfl
@[simp] theorem answered_refused (d : Dev) (rq : Req) (l : List Nat) : (d.answered rq l).bus.refused = d.bus.refused := by
  unfold answered
  simp only [modBus_bus]
  split <;> rfl

/-- The lowest-numbered free slot is found (R409). -/
theorem freeSlot_eq_some {d : Dev} {n : Nat} (hn : n < 32) (hfree : d.slot n = none)
    (hbusy : ∀ m, m < n → d.slot m ≠ none) : d.freeSlot = some n := by
  rw [freeSlot, List.find?_range_eq_some]
  exact ⟨by simp [hfree], by simpa using hn, fun m hm => by simpa [Option.isSome_iff_ne_none] using hbusy m hm⟩

theorem freeSlot_eq_none {d : Dev} (hbusy : ∀ n, n < 32 → d.slot n ≠ none) : d.freeSlot = none := by
  simpa [freeSlot, List.find?_eq_none] using hbusy

/-- A readout's lock touches the records alone (R312). -/
theorem readLock_frame (d : Dev) (part id : Nat) : ∃ c, d.readLock part id = { d with cap := c } := by
  unfold readLock
  split <;> exact ⟨_, rfl⟩

/-- An accepted command whose descriptor is laid out right fills its slot and waits behind the others (R409). -/
theorem accept_frame {d : Dev} {bytes : List Nat} (now n handle : Nat) (h : descBad bytes = none) :
    ∃ sl c, d.accept now n handle bytes = { d with
        cap := c
        bus := { d.bus with slots := tset none d.bus.slots n (some sl), waiting := d.bus.waiting ++ [n] } } ∧
      sl.handle = handle ∧ sl.op = bytes.headD 0 ∧ sl.args = bytes.drop 8 ∧ sl.begun = false ∧ sl.ended = none := by
  unfold accept
  simp only [h, Option.isSome_none]
  split
  · obtain ⟨c, hc⟩ := readLock_frame d _ _
    rw [hc]
    exact ⟨_, _, rfl, rfl, rfl, rfl, rfl, rfl⟩
  · exact ⟨_, _, rfl, rfl, rfl, rfl, rfl, rfl⟩

end Dev

/-- A submission that nothing refuses takes the lowest free slot and the sequence number (R408, R409). -/
theorem submitTo_accepted {s : State} {port n : Nat} (hon : s.dev.domOn 1 = true)
    (hstage : s.dev.stageBars ((s.dev.descBytes port).headD 0) = false) (hfree : s.dev.freeSlot = some n) :
    submitTo s port = { s with
      ring := { s.ring with seq := seqNext s.ring.seq }
      dev := (s.dev.accept s.now n (s.ring.seq * 32 + n) (s.dev.descBytes port)).answer .pcie (s.ring.seq * 32 + n) } := by
  unfold submitTo
  simp only [hon, hstage, hfree]
  rfl

/-- A submission that the stage bars, or that finds no slot free, is counted and answered with the reason (R408). -/
theorem submitTo_refused {s : State} {port : Nat} (hon : s.dev.domOn 1 = true)
    (h : s.dev.stageBars ((s.dev.descBytes port).headD 0) = true ∨ s.dev.freeSlot = none) :
    let reason := if s.dev.stageBars ((s.dev.descBytes port).headD 0) then 2 else 1
    submitTo s port = s.withDev
      (((s.dev.modBus (fun b => { b with refused := sat1 16 b.refused })).raise 9 1).answer .pcie (reason * 65536)) := by
  unfold submitTo
  cases hstage : s.dev.stageBars ((s.dev.descBytes port).headD 0) with
  | true => simp only [hon, hstage]; rfl
  | false => simp only [hon, hstage, h.resolve_left (hstage ▸ Bool.false_ne_true)]; rfl

/-- Settles O15. -/
theorem submissionTakesLowestFreeSlot : Obligations.SubmissionTakesLowestFreeSlot := by
  unfold Obligations.SubmissionTakesLowestFreeSlot
  intro port n s hon hstage hbytes hn hfree hbusy hseq
  obtain ⟨sl, c, hacc, hhandle, hop, hargs, hbegun, hended⟩ :=
    Dev.accept_frame (d := s.dev) s.now n (s.ring.seq * 32 + n) hbytes
  refine ⟨submitTo s port, sl, rfl, submitTo_pending s port, submitTo_clk s port, ?_⟩
  rw [submitTo_accepted hon hstage (Dev.freeSlot_eq_some hn hfree hbusy), hacc, hhandle]
  refine ⟨rfl, ?_, rfl, by omega, hop, hargs, hbegun, hended, fun m hm => ?_, ?_, rfl, rfl⟩
  · rw [Dev.answer, Dev.answered_slot]
    exact tget_tset_same _ _ _ _
  · rw [Dev.answer, Dev.answered_slot]
    exact tget_tset_ne _ _ _ _ _ _ hm
  · rw [Dev.answer, Dev.answered_waiting]

/-- Settles O16. -/
theorem refusedSubmissionTakesNothing : Obligations.RefusedSubmissionTakesNothing := by
  unfold Obligations.RefusedSubmissionTakesNothing
  intro port s hon barred hrefused
  refine ⟨submitTo s port, rfl, ?_⟩
  rw [submitTo_refused hon (hrefused.imp_right Dev.freeSlot_eq_none)]
  refine ⟨rfl, fun n => ?_, ?_, ?_, rfl⟩
  · simp only [Dev.answer, Dev.answered_slot, Dev.raise_slot]
    rfl
  · simp [Dev.answer]
  · simp [Dev.answer]

/-- COMPLETION while there is room: the entry is put, and the slot of the command that ended first is free (R412). -/
theorem complete_put {s : State} {n : Nat} {rest : List Nat} {sl : Slot} {e : Nat × Nat × Nat}
    (hended : s.dev.bus.ended = n :: rest) (hslot : s.dev.slot n = some sl) (hend : sl.ended = some e)
    (hroom : s.ring.unread < 63) :
    complete s = { s with
      ring := s.ring.put (entryOf s.ring sl e)
      dev := (s.dev.modBus (fun b => { b with ended := rest, slots := tset none b.slots n none })).when sl.notify
        (fun d => d.raise 9 0) } := by
  unfold complete
  simp only [hended, hslot, hend, if_neg (Nat.not_le.mpr hroom)]
  rfl

/-- Settles O17. -/
theorem completionWritesTheEntry : Obligations.CompletionWritesTheEntry := by
  unfold Obligations.CompletionWritesTheEntry
  intro n rest sl st res ts s hended hslot hend
  refine ⟨fun hroom => ?_, fun hfull => ?_⟩
  · refine ⟨complete s, rfl, complete_pending s, complete_clk s, ?_⟩
    rw [complete_put hended hslot hend hroom]
    refine ⟨rfl, rfl, rfl, rfl, rfl, tget_tset_same _ _ _ _, fun e he => tget_tset_ne _ _ _ _ _ _ he, ?_, ?_, ?_, ?_⟩
    · cases sl.notify <;> simp [Dev.when, Dev.slot]
    · intro m hm
      cases sl.notify <;> simp [Dev.when, Dev.slot, tget_tset_ne _ _ _ _ _ _ hm]
    · cases sl.notify <;> simp [Dev.when]
    · cases sl.notify <;> simp [Dev.when]
  · change Host.Outcome.next (complete s) = _
    simp [complete, hended, hfull]

/-- Settles O18. A head within the entries written is taken; one beyond them is the reason STATE (5) of Table 16.3. -/
theorem cqHeadReleasesReadEntries : Obligations.CqHeadReleasesReadEntries := by
  unfold Obligations.CqHeadReleasesReadEntries
  intro w s hon hw hhead
  have hkind : bar2Kind 0x1404 = .head := by decide
  refine ⟨fun hread => ?_, fun hpast => ?_⟩
  · have hacc : bar2Refusal s.dev s.ring .pcie 0x1404 w.toNat true = none := by
      simp [bar2Refusal, hon, hkind, Nat.not_le.mpr hw, Nat.not_lt.mpr hread]
    change Host.Outcome.next (bar2Write s .pcie 0x1404 w.toNat true) = _
    simp [bar2Write, hacc, hkind]
  · have href : bar2Refusal s.dev s.ring .pcie 0x1404 w.toNat true = some 5 := by
      simp [bar2Refusal, hon, hkind, Nat.not_le.mpr hw, hpast, rState]
    change Host.Outcome.next (bar2Write s .pcie 0x1404 w.toNat true) = _
    simp [bar2Write, href]

end Sys2Proof.Machine
end

section
/-! Fields of words: what `putBits` does to each bit, and that the fields of every register stand apart. -/

namespace Sys2Proof.Machine

theorem bit_bits {w hi lo n : Nat} : bit (bits w hi lo) n = (decide (n < hi + 1 - lo) && bit w (lo + n)) := by
  simp only [bit_eq_testBit, bits, Nat.testBit_mod_two_pow, Nat.testBit_div_two_pow, Nat.add_comm n]

/-- Two words agree in a field where they agree in each of its bits. -/
theorem bits_congr {v w hi lo : Nat} (h : ∀ n, lo ≤ n → n ≤ hi → bit v n = bit w n) : bits v hi lo = bits w hi lo := by
  refine Nat.eq_of_testBit_eq fun n => ?_
  rw [← bit_eq_testBit, ← bit_eq_testBit, bit_bits, bit_bits]
  by_cases hn : n < hi + 1 - lo
  · rw [h (lo + n) (by omega) (by omega)]
  · simp [hn]

theorem bits_eq_zero {w hi lo : Nat} (h : ∀ n, lo ≤ n → n ≤ hi → bit w n = false) : bits w hi lo = 0 := by
  rw [bits_congr (w := 0) fun n hlo hhi => (h n hlo hhi).trans (by simp [bit])]
  simp [bits]

/-- A field that is placed takes its own bits and leaves the others. -/
theorem bit_putBits {w hi lo v n : Nat} (h : lo ≤ hi) :
    bit (putBits w hi lo v) n = if lo ≤ n ∧ n ≤ hi then bit v (n - lo) else bit w n := by
  have hfield : putBits w hi lo v =
      2 ^ (hi + 1) * (w / 2 ^ (hi + 1)) + (2 ^ lo * (v % 2 ^ (hi + 1 - lo)) + w % 2 ^ lo) := by
    unfold putBits
    ring
  have hlow : w % 2 ^ lo < 2 ^ lo := Nat.mod_lt _ (Nat.two_pow_pos lo)
  have hmid : 2 ^ lo * (v % 2 ^ (hi + 1 - lo)) + w % 2 ^ lo < 2 ^ (hi + 1) := by
    have hv : v % 2 ^ (hi + 1 - lo) + 1 ≤ 2 ^ (hi + 1 - lo) := Nat.mod_lt _ (Nat.two_pow_pos _)
    calc 2 ^ lo * (v % 2 ^ (hi + 1 - lo)) + w % 2 ^ lo
        < 2 ^ lo * (v % 2 ^ (hi + 1 - lo)) + 2 ^ lo := by omega
      _ = 2 ^ lo * (v % 2 ^ (hi + 1 - lo) + 1) := by ring
      _ ≤ 2 ^ lo * 2 ^ (hi + 1 - lo) := Nat.mul_le_mul_left _ hv
      _ = 2 ^ (hi + 1) := by rw [← pow_add]; congr 1; omega
  simp only [bit_eq_testBit]
  rw [hfield, Nat.testBit_two_pow_mul_add _ hmid, Nat.testBit_two_pow_mul_add _ hlow]
  by_cases hhi : n < hi + 1
  · by_cases hlo : n < lo
    · simp [hhi, hlo, Nat.not_le.mpr hlo, Nat.testBit_mod_two_pow]
    · have hin : n - lo < hi + 1 - lo := by omega
      simp [hhi, hlo, Nat.testBit_mod_two_pow, hin, Nat.not_lt.mp hlo, Nat.lt_succ_iff.mp hhi]
  · simp [hhi, Nat.testBit_div_two_pow, Nat.sub_add_cancel (Nat.not_lt.mp hhi), show ¬n ≤ hi by omega]

/-- A bit lies in a field. -/
def Fld.has (f : Fld) (n : Nat) : Prop := f.lo ≤ n ∧ n ≤ f.hi

/-- The fields of a register are not empty and stand apart. -/
abbrev Fld.Apart (l : List Fld) : Prop :=
  (∀ f ∈ l, f.lo ≤ f.hi) ∧ l.Pairwise fun f g => f.hi < g.lo ∨ g.hi < f.lo

theorem regRows_apart : ∀ r ∈ regRows, Fld.Apart r.flds := by
  simp only [regRows, List.forall_mem_append]
  refine ⟨⟨⟨⟨⟨⟨⟨⟨⟨⟨⟨?_, ?_⟩, ?_⟩, ?_⟩, ?_⟩, ?_⟩, ?_⟩, ?_⟩, ?_⟩, ?_⟩, ?_⟩, ?_⟩ <;> decide

/-- The row of a register that is found stands in the register table. -/
theorem findReg_row {p o : Nat} {h : Hit} (e : findReg p o = some h) : h.row ∈ regRows := by
  obtain ⟨r, hr, hat⟩ := List.exists_of_findSome?_eq_some e
  simp only [Row.at?, Option.ite_none_left_eq_some, Option.ite_none_right_eq_some, Option.some.injEq] at hat
  obtain ⟨_, _, rfl⟩ := hat
  exact hr

end Sys2Proof.Machine
end

section
/-! The value a register holds after an accepted write (R9, Table 0.3), bit by bit. -/

namespace Sys2Proof.Machine
namespace Dev

/-- A write leaves a field as it is: RO, RWX while the page is locked, RWS while the owner runs (R9, R10). -/
def keepsField (d : Dev) (rq : Req) (h : Hit) (off : Nat) (f : Fld) : Bool :=
  f.acc == .ro || (f.acc.x && (rq != .load && !(d.pg h.page).unlocked)) || (f.acc.s && !(rq == .load || d.stopped h off))

/-- What a write of w makes of one field of the value v. -/
def mergeField (d : Dev) (rq : Req) (h : Hit) (off w v : Nat) (f : Fld) : Nat :=
  if f.acc.unkept then putBits v f.hi f.lo 0
  else if d.keepsField rq h off f then v else putBits v f.hi f.lo (bits w f.hi f.lo)

theorem merged_eq (d : Dev) (rq : Req) (h : Hit) (off w : Nat) :
    d.merged rq h off w = h.row.flds.foldl (d.mergeField rq h off w) (d.rd h.page off) := rfl

section
variable {d : Dev} {rq : Req} {h : Hit} {off w : Nat}

theorem bit_mergeField_out {f : Fld} {v n : Nat} (hf : f.lo ≤ f.hi) (hn : ¬f.has n) :
    bit (d.mergeField rq h off w v f) n = bit v n := by
  unfold Fld.has at hn
  unfold mergeField
  split
  · rw [bit_putBits hf, if_neg hn]
  · split
    · rfl
    · rw [bit_putBits hf, if_neg hn]

theorem bit_mergeField_in {f : Fld} {v n : Nat} (hf : f.lo ≤ f.hi) (hn : f.has n) :
    bit (d.mergeField rq h off w v f) n =
      if f.acc.unkept then false else if d.keepsField rq h off f then bit v n else bit w n := by
  obtain ⟨hlo, hhi⟩ := hn
  unfold mergeField
  split
  · rw [bit_putBits hf, if_pos ⟨hlo, hhi⟩]
    simp [bit]
  · split
    · rfl
    · have hin : n - f.lo < f.hi + 1 - f.lo := by omega
      rw [bit_putBits hf, if_pos ⟨hlo, hhi⟩, bit_bits]
      simp [hin, Nat.add_sub_cancel' hlo]

/-- A bit of no field is left. -/
theorem bit_foldl_mergeField_out {l : List Fld} {v n : Nat} (hl : ∀ f ∈ l, f.lo ≤ f.hi) (hn : ∀ f ∈ l, ¬f.has n) :
    bit (l.foldl (d.mergeField rq h off w) v) n = bit v n := by
  induction l generalizing v with
  | nil => rfl
  | cons f r ih =>
    rw [List.forall_mem_cons] at hl hn
    rw [List.foldl_cons, ih hl.2 hn.2, bit_mergeField_out hl.1 hn.1]

/-- A bit of a field is what the write makes of that field, whatever becomes of the others. -/
theorem bit_foldl_mergeField_in {l : List Fld} {f : Fld} {v n : Nat} (hl : Fld.Apart l) (hf : f ∈ l) (hn : f.has n) :
    bit (l.foldl (d.mergeField rq h off w) v) n =
      if f.acc.unkept then false else if d.keepsField rq h off f then bit v n else bit w n := by
  obtain ⟨hle, hapart⟩ := hl
  induction l generalizing v with
  | nil => cases hf
  | cons g r ih =>
    rw [List.forall_mem_cons] at hle
    rw [List.pairwise_cons] at hapart
    obtain ⟨hg, hr⟩ := hapart
    rw [List.foldl_cons]
    rcases List.mem_cons.mp hf with rfl | hf
    · rw [bit_foldl_mergeField_out hle.2, bit_mergeField_in hle.1 hn]
      intro x hx hxn
      have := hg x hx
      unfold Fld.has at hn hxn
      omega
    · rw [ih hf hle.2 hr, bit_mergeField_out hle.1]
      intro hgn
      have := hg f hf
      unfold Fld.has at hn hgn
      omega

variable {page : Nat}

/-- A field that keeps nothing reads 0 after the write. -/
theorem bits_merged_unkept {f : Fld} (hfound : findReg page off = some h) (hf : f ∈ h.row.flds)
    (hacc : f.acc.unkept = true) : bits (d.merged rq h off w) f.hi f.lo = 0 := by
  refine bits_eq_zero fun n hlo hhi => ?_
  rw [merged_eq, bit_foldl_mergeField_in (regRows_apart _ (findReg_row hfound)) hf ⟨hlo, hhi⟩, if_pos hacc]

/-- A field that the write may change takes its bits. -/
theorem bits_merged_taken {f : Fld} (hfound : findReg page off = some h) (hf : f ∈ h.row.flds)
    (hacc : f.acc.unkept = false) (hkeep : d.keepsField rq h off f = false) :
    bits (d.merged rq h off w) f.hi f.lo = bits w f.hi f.lo := by
  refine bits_congr fun n hlo hhi => ?_
  rw [merged_eq, bit_foldl_mergeField_in (regRows_apart _ (findReg_row hfound)) hf ⟨hlo, hhi⟩]
  simp [hacc, hkeep]

/-- A field that the write may not change keeps what it held. -/
theorem bits_merged_kept {f : Fld} (hfound : findReg page off = some h) (hf : f ∈ h.row.flds)
    (hacc : f.acc.unkept = false) (hkeep : d.keepsField rq h off f = true) :
    bits (d.merged rq h off w) f.hi f.lo = bits (d.rd h.page off) f.hi f.lo := by
  refine bits_congr fun n hlo hhi => ?_
  rw [merged_eq, bit_foldl_mergeField_in (regRows_apart _ (findReg_row hfound)) hf ⟨hlo, hhi⟩]
  simp [hacc, hkeep]

theorem bit_merged_out {n : Nat} (hfound : findReg page off = some h) (hn : ∀ f ∈ h.row.flds, ¬f.has n) :
    bit (d.merged rq h off w) n = bit (d.rd h.page off) n := by
  rw [merged_eq, bit_foldl_mergeField_out (regRows_apart _ (findReg_row hfound)).1 hn]

end

/-- A write of a register whose value nothing else follows holds that value (R9). -/
theorem regEffect_held {d : Dev} {now off w v old : Nat} {x : Hit} (h :
    x.page = 4 ∨ x.page = 5 ∨ x.page = 0x29 ∨
      (0x10 ≤ x.page ∧ x.page ≤ 0x14 ∧ (off = 0x20 ∨ off = 0x28 ∨ (0x400 ≤ off ∧ off < 0x800))) ∨
      (0x18 ≤ x.page ∧ x.page ≤ 0x1C ∧ off ≠ 0x20 ∧ off ≠ 0x34 ∧ off ≠ 0x38) ∨
      (x.page = 0x1E ∧ off ≠ 0x400 ∧ heldElse x.page off = false) ∨
      (x.page = 0x2A ∧ off ≠ 0x38) ∨ (x.page = 0x30 ∧ off < 0x100) ∨
      (x.page = 0x34 ∧ (off < 0x60 ∨ (0x80 ≤ off ∧ off < 0x100))) ∨
      (x.page = 0x35 ∧ off ≠ 0x74 ∧ off < 0x400)) :
    d.regEffect now x off w v old = d := by
  unfold regEffect
  dsimp only
  rcases h with hp | hp | hp | ⟨hlo, hhi, ho⟩ | ⟨hlo, hhi, ho⟩ | ⟨hp, ho, hheld⟩ | ⟨hp, ho⟩ | ⟨hp, ho⟩ | ⟨hp, ho⟩ | ⟨hp, ho⟩
  · simp [hp]
  · simp [hp]
  · simp [hp]
  · have h1 : ¬(0x40 ≤ off ∧ off < 0x200) := by omega
    simp [hlo, hhi, h1, show x.page ≠ 0 by omega, show x.page ≠ 1 by omega, show x.page ≠ 2 by omega,
      show x.page ≠ 3 by omega, show off ≠ 0x24 by omega, show off ≠ 0x2C by omega, show ¬0x800 ≤ off by omega]
  · simp [hlo, hhi, ho, show ¬x.page ≤ 0x14 by omega, show x.page ≠ 0 by omega, show x.page ≠ 1 by omega,
      show x.page ≠ 2 by omega, show x.page ≠ 3 by omega]
  · rw [hp] at hheld
    simp [hp, ho, hheld]
  · simp [hp, ho]
  · simp [hp, streamEffect, ho]
  · have h1 : ¬(0x60 ≤ off ∧ off < 0x80) := by omega
    have h2 : ¬(0x100 ≤ off ∧ off < 0x400) := by omega
    simp [hp, modelEffect, h1, h2, show ¬0x400 ≤ off by omega]
  · simp [hp, diagEffect, ho, Nat.not_le.mpr ho.2]

/-- Reading a register that was written. -/
theorem rd_wr_same (d : Dev) (p o v : Nat) : (d.wr p o v).rd p o = v % 2 ^ 32 := by
  unfold rd wr
  simp [w32]

end Dev

/-- Settles O9. -/
theorem acceptedWriteTakesTheFields : Obligations.AcceptedWriteTakesTheFields := by
  unfold Obligations.AcceptedWriteTakesTheFields
  refine ⟨fun rq page off w h d hfound => ⟨fun f hf => ⟨fun hacc => ?_, fun hacc => ?_, fun hacc => ?_, fun hacc => ?_,
    fun hacc => ?_⟩, fun n _ hn => Dev.bit_merged_out hfound hn⟩,
    fun rq page off w whole h s haccepted hcommon hfound hpage => ⟨?_, Dev.rd_wr_same _ _ _ _,
      fun p o hne => Dev.rd_wr_ne _ hne⟩⟩
  · have hunkept : f.acc.unkept = true := by rcases hacc with h | h | h <;> rw [h] <;> rfl
    exact Dev.bits_merged_unkept hfound hf hunkept
  · exact Dev.bits_merged_taken hfound hf (by rw [hacc]; rfl) (by simp [Dev.keepsField, hacc, Acc.x, Acc.s])
  · have hunkept : f.acc.unkept = false := by rw [hacc]; rfl
    refine ⟨fun hstop => Dev.bits_merged_taken hfound hf hunkept ?_, fun hstop => Dev.bits_merged_kept hfound hf hunkept ?_⟩
    · simpa [Dev.keepsField, hacc, Acc.x, Acc.s, or_iff_not_imp_left] using hstop
    · simpa [Dev.keepsField, hacc, Acc.x, Acc.s] using hstop
  · have hunkept : f.acc.unkept = false := by rw [hacc]; rfl
    refine ⟨fun hopen => Dev.bits_merged_taken hfound hf hunkept ?_, fun hopen => Dev.bits_merged_kept hfound hf hunkept ?_⟩
    · simpa [Dev.keepsField, hacc, Acc.x, Acc.s, or_iff_not_imp_left] using hopen
    · simpa [Dev.keepsField, hacc, Acc.x, Acc.s] using hopen
  · have hunkept : f.acc.unkept = false := by rw [hacc]; rfl
    refine ⟨fun hopen hstop => Dev.bits_merged_taken hfound hf hunkept ?_,
      fun hkept => Dev.bits_merged_kept hfound hf hunkept ?_⟩
    · simp only [Dev.keepsField, hacc, Acc.x, Acc.s]
      grind
    · simp only [Dev.keepsField, hacc, Acc.x, Acc.s]
      grind
  · have hpage' : h.page = page := findReg_page hfound
    have hheld : Dev.heldElse page off = false := by
      simp [Dev.heldElse]
      omega
    change onDev s (fun t d => d.busWrite t rq page off w.toNat whole) = _
    rw [onDev_eq, Dev.busWrite_own haccepted hcommon hfound, Dev.writeReg]
    rw [hpage', hheld, Dev.regEffect_held (by rw [hpage', hheld]; grind), if_neg (by grind)]
    rfl

end Sys2Proof.Machine
end

section
/-! What the event log and Locus's shared operations change: one lemma for each, naming every part of the device that it
may touch. -/

namespace Sys2Proof.Machine
namespace Dev

/-- Moving buffered entries touches the log and its buffer alone (R316). -/
theorem logDrainN_frame (n : Nat) (d : Dev) :
    ∃ log buf, logDrainN n d = { d with cap := { d.cap with log := log, buf := buf } } := by
  induction n generalizing d with
  | zero => exact ⟨_, _, rfl⟩
  | succ n ih =>
    unfold logDrainN
    split
    · exact ⟨_, _, rfl⟩
    · split
      · obtain ⟨log, buf, h⟩ := ih (d.modCap _)
        exact ⟨log, buf, h⟩
      · exact ⟨_, _, rfl⟩

theorem logDrain_frame (d : Dev) : ∃ log buf, d.logDrain = { d with cap := { d.cap with log := log, buf := buf } } :=
  logDrainN_frame _ d

/-- A log entry takes the next sequence number or is counted as lost; beside the log it changes what the event of a lost
entry does (R316). -/
theorem logEntry_frame (d : Dev) (e : LogEntry) :
    ∃ q pba sent log buf seq lost off, d.logEntry e = { d with
        pages := q
        bus := { d.bus with pba := pba, sent := sent }
        cap := { d.cap with log := log, buf := buf, logSeq := seq, logLost := lost, lostOff := off } } ∧
      (seq = d.cap.logSeq + 1 ∨ lost = sat1 32 d.cap.logLost) := by
  obtain ⟨log, buf, h⟩ := logDrain_frame d
  unfold logEntry
  dsimp only
  rw [h]
  split
  · exact ⟨_, _, _, _, _, _, _, _, rfl, .inl rfl⟩
  · split
    · exact ⟨_, _, _, _, _, _, _, _, rfl, .inl rfl⟩
    · split
      · obtain ⟨q, pba, sent, hr⟩ := raise_frame (modCap _ fun c => { c with logLost := sat1 32 c.logLost }) 0x2C 4
        rw [hr]
        exact ⟨_, _, _, _, _, _, _, _, rfl, .inr rfl⟩
      · exact ⟨_, _, _, _, _, _, _, _, rfl, .inr rfl⟩

theorem logEv_frame (d : Dev) (ts page n unit detail sub : Nat) (arg : Int) :
    ∃ q pba sent log buf seq lost off, d.logEv ts page n unit detail sub arg = { d with
        pages := q
        bus := { d.bus with pba := pba, sent := sent }
        cap := { d.cap with log := log, buf := buf, logSeq := seq, logLost := lost, lostOff := off } } ∧
      (seq = d.cap.logSeq + 1 ∨ lost = sat1 32 d.cap.logLost) :=
  logEntry_frame d _

/-- What the phasor unit keeps of the time state is all that changes (R299). -/
theorem noteTime_frame (d : Dev) (now : Nat) : ∃ ph, d.noteTime now = { d with phasor := ph } := ⟨_, rfl⟩

/-- The time quality is the one the state gives (R53). -/
theorem retq_frame (d : Dev) (now : Nat) :
    ∃ q b ph, d.retq now =
      { d with locus := { d.locus with tq := d.tqAt now }, pages := q, bus := b, phasor := ph } := by
  unfold retq
  dsimp only
  split
  · next h =>
    rw [h]
    exact ⟨_, _, _, rfl⟩
  · obtain ⟨q, b, h⟩ := raise_eq (d.modLocus (fun l => { l with tq := d.tqAt now })) 3 8
    rw [h]
    exact ⟨_, _, _, rfl⟩

end Dev

/-- What Locus notes at a change of state, but for the time quality: the departure from LOCKED, and what starts anew at
the entry to it (R43, R52). -/
def enteredLocus (now : Nat) (st : LocusState) (l : Locus) : Locus :=
  let left := if l.st == .locked && st != .locked then { l with leftLock := some now } else l
  let l' := if st == .locked && l.st != .locked then
      { left with
        lockTs := now, hist := [(now, left.trim)], recov := 0, rej := [], e0 := none, base := left.target
        integ := 0, slew := 0 }
    else left
  { l' with st := st }

section
variable (now : Nat) (st : LocusState) (l : Locus)

@[simp] theorem enteredLocus_st : (enteredLocus now st l).st = st := rfl
@[simp] theorem enteredLocus_offset : (enteredLocus now st l).offset = l.offset := by
  unfold enteredLocus
  grind
@[simp] theorem enteredLocus_trim : (enteredLocus now st l).trim = l.trim := by
  unfold enteredLocus
  grind
@[simp] theorem enteredLocus_target : (enteredLocus now st l).target = l.target := by
  unfold enteredLocus
  grind
@[simp] theorem enteredLocus_refOk : (enteredLocus now st l).refOk = l.refOk := by
  unfold enteredLocus
  grind
@[simp] theorem enteredLocus_entryTq : (enteredLocus now st l).entryTq = l.entryTq := by
  unfold enteredLocus
  grind
@[simp] theorem enteredLocus_secsValid : (enteredLocus now st l).secsValid = l.secsValid := by
  unfold enteredLocus
  grind

end

theorem enteredLocus_e0 {now : Nat} {st : LocusState} {l : Locus} (h : st ≠ .locked) :
    (enteredLocus now st l).e0 = l.e0 := by
  unfold enteredLocus
  grind

theorem enteredLocus_leftLock {now : Nat} {st : LocusState} {l : Locus} (hl : l.st = .locked) (h : st ≠ .locked) :
    (enteredLocus now st l).leftLock = some now := by
  unfold enteredLocus
  grind

namespace Dev

/-- A change of Locus's state: what Locus notes, the events and the time quality that follow (Table 2.12). -/
theorem locusGo_frame (d : Dev) (now : Nat) (st : LocusState) :
    ∃ tq q b ph, d.locusGo now st =
        { d with locus := { enteredLocus now st d.locus with tq := tq }, pages := q, bus := b, phasor := ph } ∧
      (st = .fault → tq = 15) := by
  have hgo : ∃ q b, d.locusGo now st =
      ({ d with locus := enteredLocus now st d.locus, pages := q, bus := b } : Dev).retq now := by
    unfold locusGo enteredLocus
    dsimp only
    by_cases hout : (d.locus.st == .locked && st != .locked) = true
    · have hin : (st == .locked && d.locus.st != .locked) = false := by grind
      obtain ⟨q, b, h⟩ := raise_eq (d.modLocus fun l => { l with leftLock := some now }) 3 1
      rw [if_pos hout, hin, h]
      exact ⟨q, b, by simp [hout]; rfl⟩
    · rw [if_neg hout]
      by_cases hin : (st == .locked && d.locus.st != .locked) = true
      · rw [if_pos hin]
        obtain ⟨q, b, h⟩ := raise_eq (d.modLocus fun l => { l with
          lockTs := now, hist := [(now, l.trim)], recov := 0, rej := [], e0 := none, base := l.target, integ := 0, slew := 0 }) 3 0
        rw [h]
        exact ⟨q, b, by simp [hout, hin]; rfl⟩
      · rw [if_neg hin]
        exact ⟨d.pages, d.bus, by simp [hout, hin]; rfl⟩
  obtain ⟨q, b, hgo⟩ := hgo
  obtain ⟨q', b', ph, hret⟩ := retq_frame { d with locus := enteredLocus now st d.locus, pages := q, bus := b } now
  rw [hgo, hret]
  exact ⟨_, q', b', ph, rfl, fun hst => by simp [tqAt, hst]⟩

/-- The report instants passed over are counted; nothing else but the event's (R299). -/
theorem phasorSkip_frame (d : Dev) (t0 t1 : Nat) :
    ∃ q b ph, d.phasorSkip t0 t1 = { d with pages := q, bus := b, phasor := ph } := by
  unfold phasorSkip
  dsimp only
  split
  · split
    · obtain ⟨q, b, h⟩ := raise_eq (d.modPhasor _) 0x2A 3
      exact ⟨q, b, _, h⟩
    · exact ⟨_, _, _, rfl⟩
  · split
    · obtain ⟨q, b, h⟩ := raise_eq (d.modPhasor _) 0x2A 3
      exact ⟨q, b, _, h⟩
    · exact ⟨_, _, _, rfl⟩

/-- A step of OFFSET: the sum modulo 2^64, the events and the log entry that follow (R37). -/
theorem offsetStep_frame (d : Dev) (now : Nat) (delta : Int) (ev : Bool) :
    ∃ q b ph c, d.offsetStep now delta ev =
      { d with
        locus := { d.locus with offset := ux 64 ((d.locus.offset : Int) + delta) }
        pages := q, bus := b, phasor := ph, cap := c } := by
  unfold offsetStep
  dsimp only
  split
  · next h =>
    rw [h]
    exact ⟨_, _, _, _, rfl⟩
  · have hskip : ∃ q b ph, (if 0 < delta then d.phasorSkip (d.taiAt now) (d.taiAt now + delta.toNat) else d) =
        { d with pages := q, bus := b, phasor := ph } := by
      split
      · exact phasorSkip_frame d _ _
      · exact ⟨_, _, _, rfl⟩
    obtain ⟨q, b, ph, hskip⟩ := hskip
    rw [hskip]
    obtain ⟨q', pba, sent, log, buf, seq, lost, off, hlog, _⟩ := logEv_frame
      ((modLocus { d with pages := q, bus := b, phasor := ph }
        (fun l => { l with offset := ux 64 ((d.locus.offset : Int) + delta) })).modPhasor (fun p => { p with
          steps := (now, d.locus.offset) :: p.steps.filter (fun x => decide (now ≤ x.1 + 10000000000)) }))
      now 3 (if ev then 2 else 255) 255 0 0 (sx 64 (ux 64 ((d.locus.offset : Int) + delta)))
    rw [hlog]
    split
    · obtain ⟨q2, b2, hr⟩ := raise_eq _ 3 2
      rw [hr]
      exact ⟨q2, b2, _, _, rfl⟩
    · exact ⟨_, _, _, _, rfl⟩

end Dev
end Sys2Proof.Machine
end

section
/-! Locus (chapter 02): edges of the timing source, IRIG-B frames, holdover, time-sets, leap seconds and REFCLK. -/

namespace Sys2Proof.Machine

theorem clampI_mem {lo hi : Int} (v : Int) (h : lo ≤ hi) : lo ≤ clampI lo hi v ∧ clampI lo hi v ≤ hi := by
  unfold clampI
  grind

namespace Dev

/-- The servo steers the trim's target within the limits of the trim (R32, R43). -/
theorem servo_target (d : Dev) (ph : Int) :
    -34359738 ≤ (d.servo ph).locus.target ∧ (d.servo ph).locus.target ≤ 34359738 :=
  clampI_mem _ (by decide)

/-- The first row of ACQUIRE: the edge is shown, and OFFSET steps by the negative of its phase error (R42). -/
theorem acqFirst_frame (d : Dev) (now edge : Nat) :
    ∃ q b ph c, d.acqFirst now edge =
      { d with
        locus := { d.locus with
          lastEdge := edge, haveEdge := true, phase := d.phaseOf (edge / 16), rej := [], row := 1
          offset := ux 64 ((d.locus.offset : Int) - d.phaseOf (edge / 16)) }
        pages := q, bus := b, phasor := ph, cap := c } :=
  offsetStep_frame ((d.takeEdge edge (d.phaseOf (edge / 16))).modLocus (fun l => { l with row := 1 })) now
    (-(d.phaseOf (edge / 16))) false

/-- An edge of PPS_IN is the timing source's where SRC uses it, from SAFE onward (R42). -/
theorem doPpsEdge_eq {d : Dev} {now edge : Nat} (hst : 1 ≤ d.stage.rank) (hsrc : d.src = 1 ∨ d.src = 2) :
    d.doPpsEdge now edge = d.timingEdge now edge := by
  unfold doPpsEdge
  rw [if_pos (by simpa [hst] using hsrc)]

theorem timingEdge_acquire {d : Dev} {now edge : Nat} (hst : d.locus.st = .acquire) (hrow : d.locus.row = 0) :
    d.timingEdge now edge = d.acqFirst now edge := by
  unfold timingEdge
  simp [hst, hrow]

theorem timingEdge_locked {d : Dev} {now edge : Nat} (hst : d.locus.st = .locked)
    (hgap : d.locus.lastEdge / 16 + 500000000 ≤ edge / 16) (hhi : d.phaseOf (edge / 16) ≤ d.stepThresh)
    (hlo : -d.stepThresh ≤ d.phaseOf (edge / 16)) :
    d.timingEdge now edge =
      ((d.takeEdge edge (d.phaseOf (edge / 16))).retq now).servo (d.phaseOf (edge / 16)) := by
  unfold timingEdge
  simp [hst, Nat.not_lt.mpr hgap, Int.not_lt.mpr hhi, Int.not_lt.mpr hlo]

theorem timingEdge_early {d : Dev} {now edge : Nat} (hst : d.locus.st = .locked)
    (hgap : edge / 16 < d.locus.lastEdge / 16 + 500000000) :
    d.timingEdge now edge = d.rejectEdge.modLocus (fun l => { l with rej := [] }) := by
  unfold timingEdge
  simp [hst, hgap]

/-- LEAP follows a frame's bits; beside its register, the phasor unit's record and the event follow (R39). -/
theorem leapFollow_frame (d : Dev) (now : Nat) (c : IrigCf) :
    ∃ r q b ph, d.leapFollow now c = { d with regs := r, pages := q, bus := b, phasor := ph } := by
  unfold leapFollow
  dsimp only
  split
  · obtain ⟨q, b, h⟩ := raise_eq (noteTime _ now) 3 3
    rw [h]
    exact ⟨_, q, b, _, rfl⟩
  · exact ⟨_, _, _, _, rfl⟩

/-- A frame's quality is the source's from then on (R53). -/
theorem irigInfo_frame (d : Dev) (now : Nat) (f : IrigFrame) :
    ∃ r q b ph, d.irigInfo now f = { d with
      locus := { d.locus with srcTq := (f.cf.map (·.tq)).getD 15 }, regs := r, pages := q, bus := b, phasor := ph } := by
  unfold irigInfo
  cases f.cf with
  | none => exact ⟨_, _, _, _, rfl⟩
  | some c =>
    obtain ⟨r, q, b, ph, h⟩ := leapFollow_frame d now c
    dsimp only
    rw [h]
    exact ⟨r, q, b, ph, rfl⟩

theorem irigDiscard_frame (d : Dev) :
    ∃ q b, d.irigDiscard = { d with locus := { d.locus with irigErr := sat1 32 d.locus.irigErr }, pages := q, bus := b } :=
  raise_eq (d.modLocus fun l => { l with irigErr := sat1 32 l.irigErr }) 3 6

/-- A frame that Locus takes beside PPS: its instant is noted; the state, the trim and what stands outside Locus but its
events, its register LEAP and the log stay (R48). -/
theorem irigSeconds_frame (d : Dev) (now : Nat) (f : IrigFrame) :
    ∃ l r q b ph c, d.irigSeconds now f =
        { d with locus := l, regs := r, pages := q, bus := b, phasor := ph, cap := c } ∧
      l.irigTs = some now ∧ l.st = d.locus.st ∧ l.trim = d.locus.trim := by
  have hdisc : ∃ l q b, (if d.locus.disagree.isSome && !d.irigAgree f then d.irigDiscard else d) =
      { d with locus := l, pages := q, bus := b } ∧ l.st = d.locus.st ∧ l.trim = d.locus.trim := by
    split
    · obtain ⟨q, b, h⟩ := irigDiscard_frame d
      exact ⟨_, q, b, h, rfl, rfl⟩
    · exact ⟨_, _, _, rfl, rfl, rfl⟩
  obtain ⟨l, q, b, hdisc, hst, htrim⟩ := hdisc
  have hinfo : ∃ l' r q' b' ph, (if d.irigDis f = 0 || d.irigAgree f then
      irigInfo { d with locus := l, pages := q, bus := b } now f else { d with locus := l, pages := q, bus := b }) =
        { d with locus := l', regs := r, pages := q', bus := b', phasor := ph } ∧ l'.st = l.st ∧ l'.trim = l.trim := by
    split
    · obtain ⟨r, q', b', ph, h⟩ := irigInfo_frame { d with locus := l, pages := q, bus := b } now f
      exact ⟨_, r, q', b', ph, h, rfl, rfl⟩
    · exact ⟨_, _, _, _, _, rfl, rfl, rfl⟩
  obtain ⟨l', r, q', b', ph, hinfo, hst', htrim'⟩ := hinfo
  unfold irigSeconds
  dsimp only
  rw [hdisc, hinfo]
  split
  · obtain ⟨q2, b2, ph2, c, h⟩ := offsetStep_frame (modLocus
      { d with locus := l', regs := r, pages := q', bus := b', phasor := ph } (fun l => { l with
        irigPrev := some ((d.irigLabel f).toNat, f.edge), irigTs := some now, secsValid := l.secsValid || d.irigAgree f
        disagree := if d.irigDis f = 0 || d.irigAgree f then none else some (d.irigDis f) })) now (d.irigDis f * secNs) true
    rw [h]
    exact ⟨_, _, _, _, _, _, rfl, rfl, hst'.trans hst, htrim'.trans htrim⟩
  · exact ⟨_, _, _, _, _, _, rfl, rfl, hst'.trans hst, htrim'.trans htrim⟩

/-- A frame that agrees with TAI gives the quality, and no step (R48, R53). -/
theorem irigSeconds_agreeing {d : Dev} (now : Nat) {f : IrigFrame} (h : d.irigDis f = 0) :
    (d.irigSeconds now f).locus.offset = d.locus.offset ∧ (d.irigSeconds now f).locus.disagree = none ∧
      (d.irigSeconds now f).locus.srcTq = (f.cf.map (·.tq)).getD 15 := by
  have hdisc : ∃ l q b, (if d.locus.disagree.isSome && !d.irigAgree f then d.irigDiscard else d) =
      { d with locus := l, pages := q, bus := b } ∧ l.offset = d.locus.offset := by
    split
    · obtain ⟨q, b, h⟩ := irigDiscard_frame d
      exact ⟨_, q, b, h, rfl⟩
    · exact ⟨_, _, _, rfl, rfl⟩
  obtain ⟨l, q, b, hdisc, hoffset⟩ := hdisc
  obtain ⟨r, q', b', ph, hinfo⟩ := irigInfo_frame { d with locus := l, pages := q, bus := b } now f
  have hgood : (decide (d.irigDis f = 0) || d.irigAgree f) = true := by simp [h]
  have hstep : (decide (d.irigDis f ≠ 0) && d.irigAgree f) = false := by simp [h]
  unfold irigSeconds
  dsimp only
  rw [hdisc, hgood, hstep, if_pos rfl, if_neg Bool.false_ne_true, hinfo]
  exact ⟨hoffset, rfl, rfl⟩

/-- One that alone disagrees is held, and changes nothing else of Locus (R48). -/
theorem irigSeconds_disagreeing {d : Dev} (now : Nat) {f : IrigFrame} (h : d.irigDis f ≠ 0)
    (hnone : d.locus.disagree = none) :
    d.irigSeconds now f = d.modLocus (fun l => { l with
      irigPrev := some ((d.irigLabel f).toNat, f.edge), irigTs := some now, disagree := some (d.irigDis f) }) := by
  have hagree : d.irigAgree f = false := by
    unfold irigAgree
    split
    · simp [hnone, h]
    · rfl
  unfold irigSeconds
  dsimp only
  rw [hagree]
  simp only [hnone, h, decide_false, decide_true, Bool.or_false, Bool.and_false, Option.isSome_none, Bool.false_and,
    Bool.false_eq_true, if_false, ne_eq, not_false_eq_true]

theorem holdE0_frame (d : Dev) : ∃ fr, d.holdE0.2 = { d with free := fr } := by
  unfold holdE0
  split <;> exact ⟨_, rfl⟩

/-- HOLDOVER: the target is the mean of the trim, and the error estimate starts at its instant (R52). -/
theorem enterHoldover_eq (d : Dev) (now t0 : Nat) :
    d.enterHoldover now t0 = (d.holdE0.2.modLocus fun l => { l with
      target := d.trimMean now, e0 := some (d.holdE0.1, t0), entryTq := l.tq, recov := 0 }).locusGo now .holdover := rfl

theorem frozen_locusGo_frame (d : Dev) (now fr : Nat) (m : Int) (e0 : Option (Nat × Nat)) :
    ∃ tq q b ph, (modLocus { d with free := fr } fun l => { l with
        target := m, e0 := e0, entryTq := l.tq, recov := 0 }).locusGo now .holdover =
      { d with
        locus := { enteredLocus now .holdover { d.locus with
          target := m, e0 := e0, entryTq := d.locus.tq, recov := 0 } with tq := tq }
        pages := q, bus := b, phasor := ph, free := fr } := by
  obtain ⟨tq, q, b, ph, h, _⟩ := locusGo_frame (modLocus { d with free := fr } fun l => { l with
    target := m, e0 := e0, entryTq := l.tq, recov := 0 }) now .holdover
  exact ⟨tq, q, b, ph, h⟩

theorem enterHoldover_frame (d : Dev) (now t0 : Nat) :
    ∃ target tq q b ph fr, d.enterHoldover now t0 = { d with
      locus := { enteredLocus now .holdover { d.locus with
        target := target, e0 := some (d.holdE0.1, t0), entryTq := d.locus.tq, recov := 0 } with tq := tq }
      pages := q, bus := b, phasor := ph, free := fr } := by
  obtain ⟨fr, hfree⟩ := holdE0_frame d
  obtain ⟨tq, q, b, ph, h⟩ := frozen_locusGo_frame d now fr (d.trimMean now) (some (d.holdE0.1, t0))
  exact ⟨d.trimMean now, tq, q, b, ph, fr, by rw [enterHoldover_eq, hfree, h]⟩

end Dev

/-- Settles O49. -/
theorem timeSourceEventsAct : Obligations.TimeSourceEventsAct := by
  unfold Obligations.TimeSourceEventsAct
  intro edge f s hstage
  refine ⟨⟨fun hsrc hst hrow => ?_, fun hsrc hst hgap hhi hlo => ?_, fun hsrc hst hgap => ?_⟩, fun hsrc hst hbad => ?_,
    fun hsrc hst hbad hfar => ?_, fun hst hfree hhost => ?_, fun ts hst hsrc hts => ?_, ?_⟩
  · obtain ⟨q, b, ph, c, h⟩ := Dev.acqFirst_frame s.dev s.now edge
    refine ⟨s.withDev (s.dev.doPpsEdge s.now edge), rfl, rfl, rfl, rfl, ?_⟩
    rw [Dev.doPpsEdge_eq hstage hsrc, Dev.timingEdge_acquire hst hrow, h]
    exact ⟨rfl, rfl, rfl, rfl, hst, rfl, rfl, rfl⟩
  · refine ⟨s.withDev (s.dev.doPpsEdge s.now edge), rfl, rfl, rfl, rfl, ?_⟩
    rw [Dev.doPpsEdge_eq hstage hsrc, Dev.timingEdge_locked hst hgap hhi hlo]
    obtain ⟨q, b, ph, h⟩ := Dev.retq_frame (s.dev.takeEdge edge (s.dev.phaseOf (edge / 16))) s.now
    obtain ⟨htlo, hthi⟩ := Dev.servo_target
      ((s.dev.takeEdge edge (s.dev.phaseOf (edge / 16))).retq s.now) (s.dev.phaseOf (edge / 16))
    rw [h] at htlo hthi ⊢
    exact ⟨rfl, rfl, rfl, hst, rfl, htlo, hthi, rfl, rfl⟩
  · change onDev s (fun t d => d.doPpsEdge t edge) = _
    rw [onDev_eq, Dev.doPpsEdge_eq hstage hsrc, Dev.timingEdge_early hst hgap]
    rfl
  · have hrank : s.dev.stage.rank ≠ 0 := by omega
    have hdo : s.dev.doIrigFrame s.now f = s.dev.irigDiscard := by
      unfold Dev.doIrigFrame
      rcases hsrc with hsrc | hsrc <;> simp [hst, hrank, hsrc, hbad]
    change onDev s (fun t d => d.doIrigFrame t f) = _
    rw [onDev_eq, hdo]
    rfl
  · have hrank : s.dev.stage.rank ≠ 0 := by omega
    have hdo : s.dev.doIrigFrame s.now f = (s.dev.irigSeconds s.now f).retq s.now := by
      unfold Dev.doIrigFrame
      simp [hst, hrank, hsrc, hbad, hfar]
    refine ⟨s.withDev (s.dev.doIrigFrame s.now f), rfl, rfl, rfl, rfl, ?_⟩
    rw [hdo]
    obtain ⟨q, b, ph, hret⟩ := Dev.retq_frame (s.dev.irigSeconds s.now f) s.now
    rw [hret]
    obtain ⟨l, r, q', b', ph', c, hsec, hts, hst', htrim⟩ := Dev.irigSeconds_frame s.dev s.now f
    refine ⟨by rw [hsec]; exact hts, by rw [hsec]; exact hst', by rw [hsec]; exact htrim, by rw [hsec], fun hagree => ?_,
      fun hdis hnone => ?_⟩
    · obtain ⟨hoff, hnone, htq⟩ := Dev.irigSeconds_agreeing s.now hagree
      refine ⟨hoff, hnone, htq.trans ?_⟩
      cases f.cf <;> rfl
    · rw [Dev.irigSeconds_disagreeing s.now hdis hnone]
      exact ⟨rfl, rfl, rfl, rfl, rfl⟩
  · have hdo : s.dev.doHoldover s.now = s.dev.enterHoldover s.now (s.dev.locus.lastEdge / 16) := by
      unfold Dev.doHoldover
      simp [hst, hfree, hhost]
    obtain ⟨target, tq, q, b, ph, fr, h⟩ := Dev.enterHoldover_frame s.dev s.now (s.dev.locus.lastEdge / 16)
    refine ⟨s.withDev (s.dev.doHoldover s.now), s.dev.holdE0.1, rfl, rfl, rfl, rfl, ?_⟩
    rw [hdo, h]
    refine ⟨rfl, ?_, ?_, ?_, ?_, ?_, rfl, rfl⟩
    · simp
    · simp
    · simp [enteredLocus_e0]
    · simp
    · simp [enteredLocus_leftLock, hst]
  · have hdo : s.dev.doTimeSetTimeout s.now = s.dev.enterHoldover s.now ts := by
      unfold Dev.doTimeSetTimeout
      simp [hst, hsrc, hts]
    obtain ⟨target, tq, q, b, ph, fr, h⟩ := Dev.enterHoldover_frame s.dev s.now ts
    have he : s.dev.holdE0.1 = 30 + s.dev.locus.errNs := by simp [Dev.holdE0, hsrc]
    refine ⟨s.withDev (s.dev.doTimeSetTimeout s.now), rfl, rfl, rfl, rfl, ?_⟩
    rw [hdo, h, he]
    refine ⟨rfl, ?_, ?_, ?_, rfl, rfl⟩
    · simp
    · simp
    · simp [enteredLocus_e0]
  · obtain ⟨q, b, ph, h⟩ := Dev.retq_frame s.dev s.now
    refine ⟨s.withDev (s.dev.retq s.now), rfl, rfl, rfl, rfl, ?_⟩
    rw [h]
    exact ⟨rfl, rfl, rfl, rfl, rfl⟩

theorem bit_mod_two_pow {w k n : Nat} (h : n < k) : bit (w % 2 ^ k) n = bit w n := by
  simp [bit_eq_testBit, Nat.testBit_mod_two_pow, h]

/-- A field of a word cut to 32 bits is the field. -/
theorem bits_mod_two_pow {w hi lo : Nat} (h : hi < 32) : bits (w % 2 ^ 32) hi lo = bits w hi lo :=
  bits_congr fun _ _ hn => bit_mod_two_pow (by omega)

theorem bits_putBits_same {w hi lo v : Nat} (h : lo ≤ hi) : bits (putBits w hi lo v) hi lo = v % 2 ^ (hi + 1 - lo) := by
  refine Nat.eq_of_testBit_eq fun n => ?_
  rw [← bit_eq_testBit, bit_bits, bit_putBits h, Nat.testBit_mod_two_pow]
  by_cases hn : n < hi + 1 - lo
  · simp [hn, show lo + n ≤ hi by omega, bit_eq_testBit]
  · simp [hn]

theorem bit_setBit_false (w n : Nat) : bit (setBit w n false) n = false := by
  unfold setBit
  split
  case isTrue h => exact h
  case isFalse h =>
    have hset : w / 2 ^ n % 2 = 1 := by simpa [bit] using h
    have hle : 2 ^ n * 1 ≤ w := by
      rw [Nat.mul_comm]
      have hne : w / 2 ^ n ≠ 0 := fun hzero => by simp [hzero] at hset
      exact (Nat.le_div_iff_mul_le (Nat.two_pow_pos n)).mp (Nat.one_le_iff_ne_zero.mpr hne)
    have hdiv : (w - 2 ^ n) / 2 ^ n = w / 2 ^ n - 1 := by
      simpa using Nat.sub_mul_div w (2 ^ n) 1
    simp only [bit, Bool.false_eq_true, if_false, hdiv, beq_eq_false_iff_ne]
    omega

/-- REFCLK returns: Locus acquires its source afresh, or is FREE with none (R55). -/
theorem Dev.doRefclkReturn_eq {d : Dev} {now : Nat} (h : d.locus.refOk = false) :
    d.doRefclkReturn now = (d.modLocus (fun l => { l with
      refOk := true, row := 0, rej := [], recov := 0, irigPrev := none, disagree := none })).locusGo now
        (if d.src = 0 then .free else .acquire) := by
  unfold doRefclkReturn
  rw [if_neg (by simp [h])]
  rfl

/-- Settles O50. -/
theorem leapAndReferenceClockEventsAct : Obligations.LeapAndReferenceClockEventsAct := by
  unfold Obligations.LeapAndReferenceClockEventsAct
  intro s
  refine ⟨fun hpend hneg => ?_, fun hpend hready => ?_, rfl, fun href => ?_, fun href => ?_⟩
  · change onDev s (fun _ d => d.doLeapStart) = _
    simp [onDev_eq, Dev.doLeapStart, hpend, hneg]
  · refine ⟨s.withDev (s.dev.doLeapDone s.now), rfl, rfl, rfl, rfl, ?_⟩
    unfold Dev.doLeapDone
    rw [if_pos (by simpa [hpend] using hready)]
    dsimp only
    obtain ⟨q, b, h⟩ := Dev.raise_eq ((s.dev.wr 3 0x4C (putBits (setBit (s.dev.rd 3 0x4C) 8 false) 7 0
      ((if s.dev.leapNeg then s.dev.taiUtc + 255 else s.dev.taiUtc + 1) % 256))).modLocus
        (fun l => { l with active := false, occurred := some s.now })) 3 4
    rw [h]
    refine ⟨?_, ?_, rfl, rfl, rfl, rfl, rfl, fun p o hne => Dev.rd_wr_ne _ hne⟩
    · refine (congrArg (bits · 7 0) (Dev.rd_wr_same s.dev 3 0x4C _)).trans ?_
      rw [bits_mod_two_pow (by decide), bits_putBits_same (by decide)]
      exact Nat.mod_mod _ _
    · refine (congrArg (bit · 8) (Dev.rd_wr_same s.dev 3 0x4C _)).trans ?_
      rw [bit_mod_two_pow (by decide), bit_putBits (by decide), if_neg (by decide), bit_setBit_false]
  · obtain ⟨tq, q, b, ph, h, htq⟩ := Dev.locusGo_frame
      (s.dev.modLocus (fun l => { l with refOk := false, freeLost := true })) s.now .fault
    refine ⟨?_, ?_⟩
    · change onDev s (fun t d => d.doRefclkLoss t) = _
      simp [onDev_eq, Dev.doRefclkLoss, href]
    · rw [h]
      refine ⟨rfl, ?_, htq rfl, ?_⟩
      · simp
      · simp
  · refine ⟨s.withDev (s.dev.doRefclkReturn s.now), rfl, rfl, rfl, rfl, ?_⟩
    obtain ⟨tq, q, b, ph, h, _⟩ := Dev.locusGo_frame (s.dev.modLocus (fun l => { l with
      refOk := true, row := 0, rej := [], recov := 0, irigPrev := none, disagree := none })) s.now
      (if s.dev.src = 0 then .free else .acquire)
    rw [Dev.doRefclkReturn_eq href, h]
    refine ⟨?_, rfl, ?_, ?_, rfl, rfl⟩
    · simp
    · simp
    · simp

end Sys2Proof.Machine
end

section
/-! Accepted writes of registers that act (chapters 01 to 16): what a write holds, and the rule it sets going. -/

namespace Sys2Proof.Machine
namespace Dev

/-- An accepted write of a register whose value the table holds. -/
theorem busWrite_held {d : Dev} {now p o w : Nat} {rq : Req} {x : Hit} (h : d.refusal now rq p o w true = none)
    (hc : commonOff o = false) (hf : findReg p o = some x) (hheld : heldElse p o = false) (hcfg : ¬(p = 2 ∧ o = 0x20)) :
    d.busWrite now rq p o w true =
      (d.wr p o (d.merged rq x o w)).regEffect now x o w (d.merged rq x o w) (d.rd p o) := by
  rw [busWrite_own h hc hf, writeReg]
  simp only [findReg_page hf, hheld, Bool.false_eq_true, if_false]
  rw [if_neg (by simpa using hcfg)]

/-- An accepted write of a register whose value its block holds. -/
theorem busWrite_heldElse {d : Dev} {now p o w : Nat} {rq : Req} {x : Hit} (h : d.refusal now rq p o w true = none)
    (hc : commonOff o = false) (hf : findReg p o = some x) (hheld : heldElse p o = true) (hcfg : ¬(p = 2 ∧ o = 0x20)) :
    d.busWrite now rq p o w true = d.regEffect now x o w (d.merged rq x o w) (d.rd p o) := by
  rw [busWrite_own h hc hf, writeReg]
  simp only [findReg_page hf, hheld, if_true]
  rw [if_neg (by simpa using hcfg)]

/-- A register of one field that takes its bits holds them placed in what it held. -/
theorem merged_rw {d : Dev} {rq : Req} {x : Hit} {o w hi lo : Nat} {l : List (Nat × Nat)}
    (h : x.row.flds = [⟨hi, lo, .rw, l⟩]) : d.merged rq x o w = putBits (d.rd x.page o) hi lo (bits w hi lo) := by
  rw [merged_eq, h]
  rfl

/-- A register of one field that keeps nothing. -/
theorem merged_wo {d : Dev} {rq : Req} {x : Hit} {o w hi lo : Nat} {l : List (Nat × Nat)}
    (h : x.row.flds = [⟨hi, lo, .wo, l⟩]) : d.merged rq x o w = putBits (d.rd x.page o) hi lo 0 := by
  rw [merged_eq, h]
  rfl

end Dev

/-- A row of the table that is one write of a register. -/
theorem busRow_eq (s : State) (rq : Req) (p o : Nat) (w : Word) :
    busRow s rq p o w = .next (s.withDev (s.dev.busWrite s.now rq p o w.toNat true)) := rfl

/-- A command that is one write of a register whose value the table holds: the register, and its effect. -/
theorem busRow_held {s : State} {rq : Req} {p o : Nat} {w : Word} {x : Hit}
    (h : s.dev.refusal s.now rq p o w.toNat true = none) (hf : findReg p o = some x)
    (hc : Dev.commonOff o = false := by decide) (hheld : Dev.heldElse p o = false := by decide)
    (hcfg : ¬(p = 2 ∧ o = 0x20) := by decide) :
    busRow s rq p o w = .next (s.withDev ((s.dev.wr p o (s.dev.merged rq x o w.toNat)).regEffect s.now x o w.toNat
      (s.dev.merged rq x o w.toNat) (s.dev.rd p o))) := by
  rw [busRow_eq, Dev.busWrite_held h hc hf hheld hcfg]

/-- The same for a register whose value its block holds. -/
theorem busRow_heldElse {s : State} {rq : Req} {p o : Nat} {w : Word} {x : Hit}
    (h : s.dev.refusal s.now rq p o w.toNat true = none) (hf : findReg p o = some x)
    (hc : Dev.commonOff o = false := by decide) (hheld : Dev.heldElse p o = true := by decide)
    (hcfg : ¬(p = 2 ∧ o = 0x20) := by decide) :
    busRow s rq p o w = .next (s.withDev (s.dev.regEffect s.now x o w.toNat
      (s.dev.merged rq x o w.toNat) (s.dev.rd p o))) := by
  rw [busRow_eq, Dev.busWrite_heldElse h hc hf hheld hcfg]

/-- SET, CLR, FORCE and KICK in the register table. -/
def setReg : Hit := ⟨reg 2 0x050 0 [fAny 9 8 .wo, fIn 7 0 .wo 0 51], 2, 0, 0⟩
def clrReg : Hit := ⟨reg 2 0x054 0 [fOf 7 0 .wo [(0, 51), (255, 255)]], 2, 0, 0⟩
def forceReg : Hit := ⟨reg 2 0x058 0 [fAny 1 1 .wo, fAny 0 0 .wo], 2, 0, 0⟩
def kickReg : Hit := ⟨reg 2 0x068 0 [fAny 0 0 .wo], 2, 0, 0⟩

theorem findReg_kick : findReg 2 0x68 = some kickReg := rfl

/-- KICK is taken from the interface that HWD names alone (R385). -/
theorem Dev.kick_accepted {d : Dev} {now w : Nat} {rq : Req}
    (h : d.refusal now rq 2 0x68 w true = none) :
    d.flag 2 0x64 31 = (rq == .qspi) := by
  obtain ⟨_, _, _, _, hcore, _⟩ := (Dev.refusal_own_eq_none_iff (by decide) findReg_kick).mp h
  simpa [Dev.checkCore, kickReg, whenR_eq_nil] using hcore

theorem Dev.regEffect_force (d : Dev) (now w v old : Nat) :
    d.regEffect now forceReg 0x58 w v old = d.forceWrite now w := rfl

/-- FORCE.TRIP is a device trip, FORCE.BRK is none (Table 15.5). -/
theorem Dev.forceWrite_trip (d : Dev) (now : Nat) : d.forceWrite now 1 = d.latch now 10 := by simp [forceWrite, bit]
theorem Dev.forceWrite_brk (d : Dev) (now : Nat) : d.forceWrite now 2 = d.latchBit now 11 := by
  simp [forceWrite, bit, latch]

/-- Settles O20. -/
theorem hullWritesAct : Obligations.HullWritesAct := by
  unfold Obligations.HullWritesAct
  intro rq w s
  refine ⟨fun h => ⟨s.dev.merged rq setReg 0x50 w.toNat, ?_⟩, fun h => ⟨s.dev.merged rq clrReg 0x54 w.toNat, ?_⟩,
    fun h => ⟨s.dev.merged rq forceReg 0x58 1, ?_⟩, fun h => ⟨s.dev.merged rq forceReg 0x58 2, ?_⟩,
    fun h hkick => ⟨s.dev.merged rq kickReg 0x68 w.toNat, ?_⟩, fun _ hother h => hother (Dev.kick_accepted h)⟩
  · exact busRow_held (x := setReg) h rfl
  · exact busRow_held (x := clrReg) h rfl
  · rw [← Dev.forceWrite_trip]
    exact (busRow_held (x := forceReg) (w := 1) h rfl).trans (by rw [Dev.regEffect_force]; rfl)
  · rw [← Dev.forceWrite_brk]
    exact (busRow_held (x := forceReg) (w := 2) h rfl).trans (by rw [Dev.regEffect_force]; rfl)
  · refine (busRow_held (x := kickReg) h rfl).trans ?_
    congr 2
    exact if_pos hkick

end Sys2Proof.Machine
end

section
/-! Accepted writes of strings, links, contexts and the Lattice windows (chapters 01 to 09). -/

namespace Sys2Proof.Machine

/-- The rows of one page. -/
def rowsOn (p : Nat) : List Row := regRows.filter (fun r => r.pages.contains p)

/-- A register is looked for among the rows of its page. -/
theorem findReg_rowsOn (p o : Nat) : findReg p o = (rowsOn p).findSome? (fun r => r.at? p o) := by
  unfold findReg rowsOn
  induction regRows with
  | nil => rfl
  | cons r l ih =>
    rw [List.findSome?_cons, List.filter_cons]
    by_cases hp : p ∈ r.pages
    · simp [hp, List.findSome?_cons, ih]
    · have hnone : r.at? p o = none := by simp [Row.at?, hp]
      simp [hp, hnone, ih]

/-- The FACET rows of a link's page. -/
def facetRowsOf (k : Nat) : List Row :=
  if k < 48 then facetRows [0x10, 0x11, 0x12, 0x13] 12 12 else facetRows [0x14] 4 2

theorem rowsOn_facetPage : ∀ k < 52, rowsOn (facetPage k) = facetRowsOf k := by decide

/-- LINK_CTRL and TRIM of a link in the register table. -/
def linkCtrlReg (k : Nat) : Hit := ⟨(facetRowsOf k).getD 4 (roReg [] 0 0 0), facetPage k, unitIdx k, 0⟩
def trimReg (k p : Nat) : Hit := ⟨(facetRowsOf k).getD 9 (roReg [] 0 0 0), facetPage k, unitIdx k, p⟩

theorem findReg_linkCtrl {k : Nat} (hk : k < 52) :
    findReg (facetPage k) (0x40 + 0x20 * unitIdx k) = some (linkCtrlReg k) := by
  rw [findReg_rowsOn, rowsOn_facetPage k hk]
  revert k
  decide

theorem findReg_trim {k p : Nat} (hk : k < 52) (hp : p < positions k) :
    findReg (facetPage k) (0x800 + 0x40 * unitIdx k + 4 * p) = some (trimReg k p) := by
  have h : ∀ k < 52, ∀ p < positions k, (facetRowsOf k).findSome?
      (fun r => r.at? (facetPage k) (0x800 + 0x40 * unitIdx k + 4 * p)) = some (trimReg k p) := by decide
  rw [findReg_rowsOn, rowsOn_facetPage k hk, h k hk p hp]

theorem facetPage_range {k : Nat} (hk : k < 52) : 0x10 ≤ facetPage k ∧ facetPage k ≤ 0x14 := by
  unfold facetPage
  split <;> omega

theorem unitIdx_lt {k : Nat} (hk : k < 52) : unitIdx k < 12 := by
  unfold unitIdx
  split <;> omega

/-- A link's page and index name it (R92). -/
theorem unitAt_facetPage : ∀ k < 52, unitAt (facetPage k) (unitIdx k) = k := by decide

theorem heldElse_facetPage {k o : Nat} (hk : k < 52) : Dev.heldElse (facetPage k) o = false := by
  obtain ⟨hlo, hhi⟩ := facetPage_range hk
  simp [Dev.heldElse]
  omega

theorem commonOff_of_le {o : Nat} (h : 0x20 ≤ o) : Dev.commonOff o = false := by
  simp [Dev.commonOff, Nat.not_lt.mpr h]

namespace Dev

/-- LINK_CTRL: REALIGN runs for the link (R89). -/
theorem regEffect_linkCtrl {k : Nat} (hk : k < 52) (d : Dev) (now w v old : Nat) :
    d.regEffect now (linkCtrlReg k) (0x40 + 0x20 * unitIdx k) w v old = if bit w 0 then d.realignLink now k else d := by
  have hp := facetPage_range hk
  have hi := unitIdx_lt hk
  unfold regEffect
  dsimp only [linkCtrlReg]
  rw [if_neg (by omega), if_neg (by omega), if_neg (by omega), if_neg (by omega), if_pos hp, if_neg (by omega),
    if_neg (by omega), if_pos (by omega), unitAt_facetPage k hk]

/-- TRIM: what changed goes to the node (R110). -/
theorem regEffect_trim {k p : Nat} (hk : k < 52) (d : Dev) (now w v old : Nat) :
    d.regEffect now (trimReg k p) (0x800 + 0x40 * unitIdx k + 4 * p) w v old = d.syncCfg k := by
  have hp := facetPage_range hk
  unfold regEffect
  dsimp only [trimReg]
  rw [if_neg (by omega), if_neg (by omega), if_neg (by omega), if_neg (by omega), if_pos hp, if_neg (by omega),
    if_neg (by omega), if_neg (by omega), if_pos (by omega), unitAt_facetPage k hk]

end Dev

/-- STR_CFG, DEAD_CFG, AGE_FULL, WITHDRAW and FREEZE in the register table. -/
def strCfgReg (i : Nat) : Hit :=
  ⟨regs [0] 0x040 4 4 0 [fAny 31 31 .wo, fAny 19 16 .rws, fAny 12 8 .rws, fAny 5 0 .rws], 0, i, 0⟩
def deadCfgReg (x : Nat) : Hit :=
  ⟨regs [0x18, 0x19, 0x1A, 0x1B, 0x1C] 0x020 0 1 0x3E80 [fIn 16 0 .rws 800 80000], 0x18 + x, 0, 0⟩
def ageFullReg (k : Nat) : Hit := ⟨regs [0x34] 0x404 0x10 48 0 [fAny 31 0 .rwxs], 0x34, k, 0⟩
def withdrawReg (i : Nat) : Hit := ⟨regs [0x1E] 0x08C 0x20 4 0 [fAny 15 0 .rw], 0x1E, i, 0⟩
def freezeReg : Hit := ⟨reg 0x1E 0x400 0 [fAny 0 0 .rwx], 0x1E, 0, 0⟩

theorem findReg_strCfg : ∀ i < 4, findReg 0 (0x40 + 4 * i) = some (strCfgReg i) := by decide
theorem findReg_deadCfg : ∀ x < 5, findReg (0x18 + x) 0x20 = some (deadCfgReg x) := by decide
theorem findReg_ageFull : ∀ k < 48, findReg 0x34 (0x404 + 0x10 * k) = some (ageFullReg k) := by decide
theorem findReg_withdraw : ∀ i < 4, findReg 0x1E (0x8C + 0x20 * i) = some (withdrawReg i) := by decide

namespace Dev

/-- UNCONF leaves the string with no cell: the write takes COUNT, which is 0 in it, since strings are configured only
while stopped (R20). -/
theorem strCfg_unconf_count {d : Dev} {rq : Req} {i : Nat} (hi : i < 4) (h : d.boot.stage = .aware ∨ d.boot.stage = .ready) :
    bits (d.merged rq (strCfgReg i) (0x40 + 4 * i) 0x80000000) 12 8 = 0 := by
  have hstop : d.stopped (strCfgReg i) (0x40 + 4 * i) = true := by
    unfold stopped
    dsimp only [strCfgReg]
    rw [if_pos rfl, if_pos (by omega)]
    simpa [stage] using h
  exact (bits_merged_taken (f := fAny 12 8 .rws) (findReg_strCfg i hi) (by simp [strCfgReg, Machine.regs]) rfl
    (by simp [keepsField, fAny, Acc.x, hstop])).trans (by decide)

theorem regEffect_strCfg {i : Nat} (hi : i < 4) (d : Dev) (now w v old : Nat) :
    d.regEffect now (strCfgReg i) (0x40 + 4 * i) w v old = ((d.syncAll allUnits).arrUpdate).osCheck now := by
  unfold regEffect
  dsimp only [strCfgReg]
  rw [if_pos rfl, if_pos (by omega)]

theorem regEffect_deadCfg {x : Nat} (hx : x < 5) (d : Dev) (now w v old : Nat) :
    d.regEffect now (deadCfgReg x) 0x20 w v old = d.syncAll (pageUnits x) := by
  unfold regEffect
  dsimp only [deadCfgReg]
  rw [if_neg (by omega), if_neg (by omega), if_neg (by omega), if_neg (by omega), if_neg (by omega), if_pos (by omega),
    if_pos rfl, Nat.add_sub_cancel_left]

theorem regEffect_ageFull (d : Dev) (k now w v old : Nat) :
    d.regEffect now (ageFullReg k) (0x404 + 0x10 * k) w v old =
      d.updModel k (fun m => { m with age := (w : Rat) / 4294967296 }) := by
  change d.modelEffect (ageFullReg k) (0x404 + 0x10 * k) w old = _
  unfold modelEffect
  have hmod : (0x404 + 0x10 * k) % 0x10 = 4 := by omega
  rw [if_neg (by omega), if_neg (by omega), if_pos (by simp [hmod]; omega)]
  rfl

/-- WITHDRAW adds the bits of a write to those that stand (R167). -/
theorem regEffect_withdraw {i : Nat} (hi : i < 4) (d : Dev) (now w v old : Nat) :
    d.regEffect now (withdrawReg i) (0x8C + 0x20 * i) w v old =
      d.wr 0x1E (0x8C + 0x20 * i) (ofBits (onBits 16 old ++ onBits 16 w)) := by
  have hheld : heldElse 0x1E (0x8C + 0x20 * i) = true := by
    simp [heldElse]
    omega
  change (if 0x8C + 0x20 * i = 0x400 then _ else if heldElse 0x1E (0x8C + 0x20 * i) then _ else _) = _
  rw [if_neg (by omega), if_pos hheld]
  rfl

end Dev

theorem posOk_iff {k p : Nat} : posOk k p = true ↔ k < 52 ∧ p < positions k := by
  simp [posOk, positions]

/-- Settles O24. -/
theorem topologyWritesAct : Obligations.TopologyWritesAct := by
  unfold Obligations.TopologyWritesAct
  intro rq w s
  refine ⟨fun str hstr hstage h => ⟨_, Dev.strCfg_unconf_count (d := s.dev) (rq := rq) hstr hstage, ?_⟩,
    fun k hk hrealign h => ⟨s.dev.merged rq (linkCtrlReg k) (0x40 + 0x20 * unitIdx k) w.toNat, ?_⟩,
    fun k p hpos h => ⟨s.dev.merged rq (trimReg k p) (0x800 + 0x40 * unitIdx k + 4 * p) w.toNat, ?_⟩,
    fun x hx h => ⟨s.dev.merged rq (deadCfgReg x) 0x20 w.toNat, ?_⟩, fun k hk h => ?_,
    fun str hstr h => ⟨ofBits (onBits 16 (s.dev.rd 0x1E (0x8C + 0x20 * str)) ++ onBits 16 w.toNat), ?_, fun i hi => ?_⟩,
    fun h => ⟨s.dev.merged rq freezeReg 0x400 w.toNat, ?_⟩⟩
  · refine (busRow_held (w := 0x80000000) h (findReg_strCfg str hstr) (commonOff_of_le (by omega)) ?_ (by omega)).trans ?_
    · simp [Dev.heldElse]
    · rw [Dev.regEffect_strCfg hstr]
      rfl
  · refine (busRow_held h (findReg_linkCtrl hk) (commonOff_of_le (by omega)) (heldElse_facetPage hk) ?_).trans ?_
    · have := facetPage_range hk
      omega
    · rw [Dev.regEffect_linkCtrl hk, if_pos hrealign]
  · obtain ⟨hk, hp⟩ := posOk_iff.mp hpos
    refine (busRow_held h (findReg_trim hk hp) (commonOff_of_le (by omega)) (heldElse_facetPage hk) (by omega)).trans ?_
    rw [Dev.regEffect_trim hk]
  · refine (busRow_held h (findReg_deadCfg x hx) (by decide) ?_ (by omega)).trans ?_
    · simp [Dev.heldElse]
      omega
    · rw [Dev.regEffect_deadCfg hx]
  · refine (busRow_heldElse h (findReg_ageFull k hk) (commonOff_of_le (by omega)) ?_ (by omega)).trans ?_
    · simp [Dev.heldElse]
      omega
    · rw [Dev.regEffect_ageFull]
  · refine (busRow_heldElse h (findReg_withdraw str hstr) (commonOff_of_le (by omega)) ?_ (by omega)).trans ?_
    · simp [Dev.heldElse]
      omega
    · rw [Dev.regEffect_withdraw hstr]
  · rw [bit_ofBits]
    simp [mem_onBits, hi]
  · exact busRow_held (x := freezeReg) h rfl

end Sys2Proof.Machine
end

section
/-! Accepted writes of the reset, the domains, the time source, contexts and the Lattice windows (chapters 02, 07, 08, 14
and 15). -/

namespace Sys2Proof.Machine

/-- RST_CTRL, PWR:REQ and LOCUS:CTRL in the register table. -/
def rstCtrlReg : Hit := ⟨reg 0 0x078 0 [fAny 15 0 .wo], 0, 0, 0⟩
def pwrReqReg : Hit := ⟨reg 1 0x020 0x3FF [fAny 9 0 .rw], 1, 0, 0⟩
def locusCtrlReg : Hit := ⟨reg 3 0x020 0 [fAny 3 3 .rw, fIn 2 0 .rw 0 4], 3, 0, 0⟩

theorem findReg_locusCtrl : findReg 3 0x20 = some locusCtrlReg := rfl

namespace Dev

/-- A field of a register after a write of a value. -/
theorem fld_wr_same {d : Dev} {p o v hi lo : Nat} (h : hi < 32) : (d.wr p o v).fld p o hi lo = bits v hi lo := by
  rw [fld, rd_wr_same, bits_mod_two_pow h]

/-- An accepted write of CTRL selects the source it names (R41). -/
theorem src_merged (d : Dev) (rq : Req) (w : Nat) :
    (d.wr 3 0x20 (d.merged rq locusCtrlReg 0x20 w)).src = bits w 2 0 := by
  unfold src
  rw [fld_wr_same (by decide)]
  exact bits_merged_taken (f := fIn 2 0 .rw 0 4) findReg_locusCtrl (by simp [locusCtrlReg, reg]) rfl rfl

/-- A change of SRC outside FAULT: Locus acquires the new source, or is FREE with none; OFFSET and the applied trim stay
(R40). -/
theorem srcChanged_frame {d : Dev} {now : Nat} (h : d.locus.st ≠ .fault) :
    ∃ l q b ph, d.srcChanged now = { d with locus := l, pages := q, bus := b, phasor := ph } ∧
      l.st = (if d.src = 0 then .free else .acquire) ∧ l.offset = d.locus.offset ∧ l.trim = d.locus.trim := by
  have hgo : d.srcChanged now = (d.modLocus (fun l => { l with
      target := if d.src = 4 then clampI (-trimMax) trimMax (sx 32 (d.rd 3 0x48)) else l.trim
      row := 0, rej := [], recov := 0, irigPrev := none, disagree := none, e0 := none, slew := 0, freeLost := false })).locusGo
        now (if d.src = 0 then .free else .acquire) := by
    unfold srcChanged
    exact if_neg (by simpa using h)
  obtain ⟨tq, q, b, ph, hl, _⟩ := locusGo_frame (d.modLocus (fun l => { l with
      target := if d.src = 4 then clampI (-trimMax) trimMax (sx 32 (d.rd 3 0x48)) else l.trim
      row := 0, rej := [], recov := 0, irigPrev := none, disagree := none, e0 := none, slew := 0, freeLost := false }))
    now (if d.src = 0 then .free else .acquire)
  exact ⟨_, q, b, ph, hgo.trans hl, rfl, enteredLocus_offset _ _ _, enteredLocus_trim _ _ _⟩

theorem regEffect_locusCtrl {d : Dev} {now w v old : Nat} (h : bits w 2 0 ≠ bits old 2 0) :
    d.regEffect now locusCtrlReg 0x20 w v old = d.srcChanged now :=
  if_neg h

end Dev

/-- Settles O23. -/
theorem resetPowerAndSourceWritesAct : Obligations.ResetPowerAndSourceWritesAct := by
  unfold Obligations.ResetPowerAndSourceWritesAct
  intro rq w s
  refine ⟨fun h => ⟨s.dev.merged rq rstCtrlReg 0x78 w.toNat, ?_⟩, fun h => ?_, fun h hsrc hst => ?_⟩
  · exact busRow_held (x := rstCtrlReg) h rfl
  · exact busRow_heldElse (x := pwrReqReg) h rfl
  · have hexec := busRow_held h findReg_locusCtrl
    rw [Dev.regEffect_locusCtrl hsrc] at hexec
    obtain ⟨l, q, b, ph, hl, hst', hoff, htrim⟩ := Dev.srcChanged_frame
      (d := s.dev.wr 3 0x20 (s.dev.merged rq locusCtrlReg 0x20 w.toNat)) (now := s.now) hst
    rw [Dev.src_merged] at hst'
    rw [hl] at hexec
    exact ⟨_, hexec, rfl, rfl, rfl, Dev.src_merged s.dev rq w.toNat, hst', hoff, htrim, rfl, rfl, rfl⟩

/-- CTRL of a context in the register table. -/
def ctxCtrlReg (c : Nat) : Hit :=
  ⟨regs [0x21, 0x22, 0x23] 0x040 0x20 21 0 [fIn 6 4 .rw 0 3, fAny 0 0 .rw], ctxPage c, ctxIdx c, 0⟩

theorem findReg_ctxCtrl : ∀ c < 64, 1 ≤ c → findReg (ctxPage c) (0x40 + 0x20 * ctxIdx c) = some (ctxCtrlReg c) := by
  decide

/-- A context's page and index name it (Table 17.12). -/
theorem ctxAt_ctxPage {c : Nat} (h : 1 ≤ c) : Dev.ctxAt (ctxPage c) (ctxIdx c) = c := by
  unfold Dev.ctxAt ctxPage ctxIdx
  omega

theorem ctxPage_range {c : Nat} (h : 1 ≤ c) (h' : c ≤ 63) : 0x21 ≤ ctxPage c ∧ ctxPage c ≤ 0x23 := by
  unfold ctxPage
  omega

theorem heldElse_ctxCtrl {c : Nat} (h : 1 ≤ c) (h' : c ≤ 63) :
    Dev.heldElse (ctxPage c) (0x40 + 0x20 * ctxIdx c) = true := by
  have hp := ctxPage_range h h'
  have hi : ctxIdx c < 21 := Nat.mod_lt _ (by decide)
  simp [Dev.heldElse, hp]
  omega

/-- An accepted write of a context's CTRL (R191, R198, R209). -/
theorem busRow_ctxCtrl {s : State} {rq : Req} {c : Nat} {w : Word} (hc : 1 ≤ c) (hc' : c ≤ 63)
    (h : s.dev.refusal s.now rq (ctxPage c) (0x40 + 0x20 * ctxIdx c) w.toNat true = none) :
    busRow s rq (ctxPage c) (0x40 + 0x20 * ctxIdx c) w = .next (s.withDev (s.dev.ctxCtrl c w.toNat)) := by
  have hp := ctxPage_range hc hc'
  rw [busRow_heldElse h (findReg_ctxCtrl c (by omega) hc) (commonOff_of_le (by omega)) (heldElse_ctxCtrl hc hc') (by omega)]
  unfold Dev.regEffect
  dsimp only [ctxCtrlReg]
  rw [if_neg (by omega), if_neg (by omega), if_neg (by omega), if_neg (by omega), if_neg (by omega), if_neg (by omega),
    if_neg (by omega), if_neg (by omega), if_pos hp, heldElse_ctxCtrl hc hc', if_pos rfl, ctxAt_ctxPage hc]

namespace Dev

@[simp] theorem cx_updCtx_same (d : Dev) (c : Nat) (f : Ctx → Ctx) : (d.updCtx c f).cx c = f (d.cx c) := by
  simp [cx, tupd]

theorem cx_updCtx_ne {d : Dev} {c x : Nat} {f : Ctx → Ctx} (h : x ≠ c) : (d.updCtx c f).cx x = d.cx x :=
  tget_tset_ne _ _ _ _ _ _ h

/-- A context's CTRL with EN as it was and a request: the request is noted (R209). -/
theorem ctxCtrl_request {d : Dev} {c w : Nat} (hen : bit w 0 = (d.cx c).en) (hreq : bits w 6 4 ≠ 0) :
    d.ctxCtrl c w = d.updCtx c (fun x => { x with req := bits w 6 4 }) := by
  unfold ctxCtrl
  cases he : (d.cx c).en <;> simp [hen, he, hreq]

end Dev

theorem reqWord_toNat {r : Nat} (en : Bool) (h : r ≤ 3) : (reqWord r en).toNat = 16 * r + b2n en := by
  have hen : b2n en ≤ 1 := by cases en <;> decide
  simp only [reqWord, w32, BitVec.toNat_ofNat]
  omega

/-- A request that is accepted, EN as it was. -/
theorem busRow_request {s : State} {rq : Req} {c r : Nat} {en : Bool} (hc : 1 ≤ c) (hc' : c ≤ 63) (hr : 1 ≤ r)
    (hr' : r ≤ 3) (hen : (s.dev.cx c).en = en)
    (h : s.dev.refusal s.now rq (ctxPage c) (0x40 + 0x20 * ctxIdx c) (16 * r + b2n en) true = none) :
    busRow s rq (ctxPage c) (0x40 + 0x20 * ctxIdx c) (reqWord r en) =
      .next (s.withDev (s.dev.updCtx c (fun x => { x with req := r }))) := by
  rw [← reqWord_toNat en hr'] at h
  have hbit : bit (16 * r + b2n en) 0 = en := by
    cases en <;> simp [bit, b2n] <;> omega
  have hreq : bits (16 * r + b2n en) 6 4 = r := by
    cases en <;> simp [bits, b2n] <;> omega
  rw [busRow_ctxCtrl hc hc' h, reqWord_toNat en hr', Dev.ctxCtrl_request (by rw [hbit, hen]) (by omega), hreq]

/-- Settles O25. -/
theorem contextControlWritesAct : Obligations.ContextControlWritesAct := by
  unfold Obligations.ContextControlWritesAct
  intro rq c w en s hc hc' off
  refine ⟨fun h hen hwas hreq => ⟨?_, ?_, ?_⟩, fun h hen hwas => ⟨?_, ?_, ?_⟩, fun hen => ⟨fun h => ?_, fun h => ?_, fun h => ?_⟩⟩
  · refine (busRow_ctxCtrl hc hc' h).trans ?_
    simp [Dev.ctxCtrl, hen, hwas, hreq]
  · rw [Dev.ctxEnable, Dev.cx_updCtx_same]
  · rw [Dev.ctxEnable, Dev.cx_updCtx_same]
  · refine (busRow_ctxCtrl hc hc' h).trans ?_
    simp [Dev.ctxCtrl, hen, hwas]
  · rw [Dev.ctxDisable, Dev.cx_updCtx_same]
  · rw [Dev.ctxDisable, Dev.cx_updCtx_same]
  · exact busRow_request hc hc' (r := 1) (by decide) (by decide) hen h
  · exact busRow_request hc hc' (r := 2) (by decide) (by decide) hen h
  · exact busRow_request hc hc' (r := 3) (by decide) (by decide) hen h

/-- CDATA, LCODE:DATA, TGT, LOOP_LAT and PERIOD in the register table. -/
def cdataReg : Hit := ⟨reg 0x20 0x064 0 [fAny 15 0 .rw], 0x20, 0, 0⟩
def lcodeDataReg : Hit := ⟨reg 0x24 0x024 0 [fAny 31 0 .rwx], 0x24, 0, 0⟩
def tgtReg : Hit := ⟨reg 0x20 0x078 0 [fAny 31 31 .rw, fAny 19 16 .rw, fAny 15 0 .rw], 0x20, 0, 0⟩
def loopLatReg : Hit := ⟨reg 0x20 0x024 0xFA0 [fIn 15 0 .rws 3200 51100], 0x20, 0, 0⟩
def periodReg : Hit := ⟨reg 0x20 0x020 0x1388 [fIn 15 0 .rws 2500 50000], 0x20, 0, 0⟩

theorem bits_putBits_ne {w hi lo v hi' lo' : Nat} (h : lo ≤ hi) (hne : hi < lo' ∨ hi' < lo) :
    bits (putBits w hi lo v) hi' lo' = bits w hi' lo' := by
  refine bits_congr fun n hlo hhi => ?_
  rw [bit_putBits h, if_neg (by omega)]

namespace Dev

@[simp] theorem elem_updElem_same (d : Dev) (c e : Nat) (f : Elem → Elem) : (d.updElem c e f).elem c e = f (d.elem c e) := by
  simp [elem, updElem, tupd]

theorem elem_updElem_ne {d : Dev} {c e x : Nat} {f : Elem → Elem} (h : x ≠ e) : (d.updElem c e f).elem c x = d.elem c x := by
  simp [elem, updElem, tupd, tget_tset_ne _ _ _ _ _ _ h]

theorem cx_updElem_ne {d : Dev} {c e x : Nat} {f : Elem → Elem} (h : x ≠ c) : (d.updElem c e f).cx x = d.cx x :=
  cx_updCtx_ne h

section
variable (c : Nat) (f : Elem → Elem) (l : List Nat) (d : Dev)

/-- An update of each listed element of a context. -/
theorem each_updElem_regs : (d.each l (fun d e => d.updElem c e f)).regs = d.regs := by
  unfold each
  induction l generalizing d with
  | nil => rfl
  | cons e r ih => exact ih (d.updElem c e f)

theorem each_updElem_cx_ne {x : Nat} (h : x ≠ c) : (d.each l (fun d e => d.updElem c e f)).cx x = d.cx x := by
  unfold each
  induction l generalizing d with
  | nil => rfl
  | cons e r ih => exact (ih (d.updElem c e f)).trans (cx_updElem_ne h)

theorem each_updElem_elem_out {x : Nat} (h : x ∉ l) : (d.each l (fun d e => d.updElem c e f)).elem c x = d.elem c x := by
  unfold each
  induction l generalizing d with
  | nil => rfl
  | cons e r ih =>
    rw [List.mem_cons, not_or] at h
    exact (ih (d.updElem c e f) h.2).trans (elem_updElem_ne h.1)

/-- What holds of an element after one update, and is kept by another, holds of each listed one. -/
theorem each_updElem_elem_in {P : Elem → Prop} {x : Nat} (hf : ∀ q, P (f q)) (h : x ∈ l) :
    P ((d.each l (fun d e => d.updElem c e f)).elem c x) := by
  unfold each
  induction l generalizing d with
  | nil => cases h
  | cons e r ih =>
    by_cases hr : x ∈ r
    · exact ih (d.updElem c e f) hr
    · have hx : x = e := (List.mem_cons.mp h).resolve_right hr
      have hrest := each_updElem_elem_out c f r (d.updElem c e f) hr
      unfold each at hrest
      rw [List.foldl_cons, hrest, hx, elem_updElem_same]
      exact hf _

end

end Dev

theorem bits_lt (w hi lo : Nat) : bits w hi lo < 2 ^ (hi + 1 - lo) := Nat.mod_lt _ (Nat.two_pow_pos _)

/-- Settles O26. -/
theorem latticeWritesAct : Obligations.LatticeWritesAct := by
  unfold Obligations.LatticeWritesAct
  intro rq w s
  refine ⟨fun h => ?_, fun h => ?_, fun h => ?_, fun h => ?_, fun h => ?_⟩
  · refine ⟨_, busRow_heldElse (x := cdataReg) h rfl, ?_, ?_⟩
    · refine (bits_putBits_same (by decide)).trans (Nat.mod_eq_of_lt ?_)
      exact Nat.mod_lt _ (by decide)
    · exact bits_putBits_ne (by decide) (by decide)
  · have hw : w32 w.toNat = w := by simp [w32]
    refine ⟨putBits (s.dev.rd 0x24 0x20) 13 0 ((s.dev.fld 0x24 0x20 13 0 + 1) % 16384), ?_, ?_⟩
    · refine (busRow_heldElse (x := lcodeDataReg) h rfl).trans ?_
      change Host.Outcome.next (s.withDev (s.dev.lcodeEffect w.toNat)) = _
      rw [Dev.lcodeEffect, hw]
      rfl
    · refine (bits_putBits_same (by decide)).trans (Nat.mod_eq_of_lt ?_)
      exact Nat.mod_lt _ (by decide)
  · refine ⟨_, busRow_heldElse (x := tgtReg) h rfl, rfl, rfl, ?_⟩
    change (s.dev.tgtEffect (s.dev.fld 0x20 0x60 13 8) w.toNat).regs = _ ∧ _
    unfold Dev.tgtEffect
    refine ⟨Dev.each_updElem_regs _ _ _ _, fun e he hw => ?_, fun e he hall hne => ?_, fun x hx => ?_⟩
    · refine Dev.each_updElem_elem_in _ _ _ _ (P := fun q => q.tgt = sx 16 w.toNat) (fun _ => rfl) ?_
      split
      · exact List.mem_range.mpr he
      · next hall => exact List.mem_singleton.mpr (hw.resolve_left hall)
    · refine (Dev.each_updElem_elem_out _ _ _ _ ?_).trans ?_
      · simp [hall, hne]
      · simp [Dev.elem]
    · exact (Dev.each_updElem_cx_ne _ _ _ _ hx).trans (Dev.cx_updCtx_ne hx)
  · exact ⟨_, busRow_held (x := loopLatReg) h rfl⟩
  · exact ⟨_, busRow_held (x := periodReg) h rfl⟩

end Sys2Proof.Machine
end

section
/-! Accepted writes of PRISM, WAVE, CAPTURE, PHASOR and STREAM (chapters 11 to 13). -/

namespace Sys2Proof.Machine

/-- CH_CTRL, RX_CFG and TX_SYNC in the register table. -/
def chCtrlReg (k : Nat) : Hit := ⟨regs [0x28] 0x100 0x20 16 0 [fAny 0 0 .rw], 0x28, k, 0⟩
def rxCfgReg (n : Nat) : Hit :=
  ⟨regs [0x30] 0x100 0x40 8 0 [fIn 11 8 .rws 0 9, fAny 2 2 .rws, fAny 1 1 .rws, fAny 0 0 .rw], 0x30, n, 0⟩
def txSyncReg (n : Nat) : Hit := ⟨regs [0x30] 0x134 0x40 8 0 [fAny 0 0 .wo], 0x30, n, 0⟩

theorem findReg_chCtrl : ∀ k < 16, findReg 0x28 (0x100 + 0x20 * k) = some (chCtrlReg k) := by decide
theorem findReg_rxCfg : ∀ n < 8, findReg 0x30 (0x100 + 0x40 * n) = some (rxCfgReg n) := by decide
theorem findReg_txSync : ∀ n < 8, findReg 0x30 (0x134 + 0x40 * n) = some (txSyncReg n) := by decide

/-- WAVE:CTRL and ARR_POP, CAPTURE:CTRL, TRIG and REL, and PHASOR:POP in the register table. -/
def waveCtrlReg : Hit := ⟨reg 0x2B 0x020 0 [fAny 0 0 .rw], 0x2B, 0, 0⟩
def arrPopReg : Hit := ⟨reg 0x2B 0x03C 0 [fAny 0 0 .wo], 0x2B, 0, 0⟩
def captureCtrlReg : Hit := ⟨reg 0x2C 0x020 0 [fAny 0 0 .rw], 0x2C, 0, 0⟩
def trigReg : Hit := ⟨reg 0x2C 0x028 0 [fAny 0 0 .wo], 0x2C, 0, 0⟩
def relReg : Hit := ⟨reg 0x2C 0x0BC 0 [fAny 31 0 .wo], 0x2C, 0, 0⟩
def popReg : Hit := ⟨reg 0x2A 0x038 0 [fAny 0 0 .wo], 0x2A, 0, 0⟩

theorem heldElse_stream (o : Nat) : Dev.heldElse 0x30 o = false := by simp [Dev.heldElse]
theorem heldElse_prism (o : Nat) : Dev.heldElse 0x28 o = false := by simp [Dev.heldElse]

namespace Dev

/-- A one-bit register that takes its bits holds the bit written; one that keeps nothing holds 0. -/
theorem wr_merged_rw {d : Dev} {rq : Req} {x : Hit} {o w : Nat} (h : x.row.flds = [fAny 0 0 .rw]) :
    d.wr x.page o (d.merged rq x o w) = d.wrFld x.page o 0 0 (bits w 0 0) := by
  rw [merged_rw h]
  rfl

theorem wr_merged_wo {d : Dev} {rq : Req} {x : Hit} {o w hi lo : Nat} (h : x.row.flds = [fAny hi lo .wo]) :
    d.wr x.page o (d.merged rq x o w) = d.wrFld x.page o hi lo 0 := by
  rw [merged_wo h]
  rfl

/-- CH_CTRL.RUN set starts the channel, cleared stops it (R282). -/
theorem regEffect_chCtrl {k : Nat} (hk : k < 16) (d : Dev) (now w v old : Nat) :
    d.regEffect now (chCtrlReg k) (0x100 + 0x20 * k) w v old =
      if bit w 0 && !bit old 0 then d.chanStart now k else if bit old 0 && !bit w 0 then d.chanStop now k else d := by
  change d.prismEffect now (chCtrlReg k) (0x100 + 0x20 * k) w old = _
  unfold prismEffect
  dsimp only [chCtrlReg]
  rw [if_neg (by omega), if_pos (by omega)]

/-- RX_CFG.EN set wakes the receiver, cleared closes it (R324, R335). -/
theorem regEffect_rxCfg (d : Dev) (n now w v old : Nat) :
    d.regEffect now (rxCfgReg n) (0x100 + 0x40 * n) w v old =
      if bit w 0 && !bit old 0 then d.rxEnable now n
      else if bit old 0 && !bit w 0 then (d.rxClose now n).txFallCheck now else d := by
  change d.streamEffect now (rxCfgReg n) (0x100 + 0x40 * n) w old = _
  unfold streamEffect
  dsimp only [rxCfgReg]
  rw [if_neg (by omega), if_pos (by omega)]

/-- TX_SYNC.RESYNC returns the transmitter (R341). -/
theorem regEffect_txSync (d : Dev) (n now w v old : Nat) :
    d.regEffect now (txSyncReg n) (0x134 + 0x40 * n) w v old = if bit w 0 then d.txResync n else d := by
  change d.streamEffect now (txSyncReg n) (0x134 + 0x40 * n) w old = _
  unfold streamEffect
  dsimp only [txSyncReg]
  rw [if_neg (by omega), if_neg (by omega), if_neg (by omega), if_pos (by omega)]

theorem regEffect_waveCtrl (d : Dev) (now w v old : Nat) : d.regEffect now waveCtrlReg 0x20 w v old =
    if bit w 0 && !bit old 0 then d.waveStart else if bit old 0 && !bit w 0 then d.waveStop else d := rfl
theorem regEffect_captureCtrl (d : Dev) (now w v old : Nat) : d.regEffect now captureCtrlReg 0x20 w v old =
    if bit w 0 && !bit old 0 then d.capStart now else if bit old 0 && !bit w 0 then d.capStop now else d := rfl
theorem regEffect_trig (d : Dev) (now w v old : Nat) :
    d.regEffect now trigReg 0x28 w v old = if bit w 0 then d.trigger now 0 255 now else d := rfl
theorem regEffect_rel (d : Dev) (now w v old : Nat) : d.regEffect now relReg 0xBC w v old = d.relEffect w := rfl
theorem regEffect_pop (d : Dev) (now v old : Nat) :
    d.regEffect now popReg 0x38 1 v old = d.modPhasor (fun x => { x with queue := x.queue.drop 1 }) := rfl
theorem regEffect_arrPop (d : Dev) (now v old : Nat) :
    d.regEffect now arrPopReg 0x3C 1 v old = d.modWave (fun x => { x with fifo := x.fifo.drop 1 }) := rfl

/-- A write that differs from what is held in one RW field alone changes that field alone. -/
theorem merged_one_field {d : Dev} {rq : Req} {x : Hit} {p o w hi lo : Nat} {l : List (Nat × Nat)}
    (hfound : findReg p o = some x) (hmem : (⟨hi, lo, .rw, l⟩ : Fld) ∈ x.row.flds)
    (hkept : ∀ f ∈ x.row.flds, f.acc.unkept = false)
    (hw : ∀ n, ¬(lo ≤ n ∧ n ≤ hi) → bit w n = bit (d.rd x.page o) n) :
    d.merged rq x o w = putBits (d.rd x.page o) hi lo (bits w hi lo) := by
  have hapart := regRows_apart _ (findReg_row hfound)
  have hle : lo ≤ hi := hapart.1 _ hmem
  refine Nat.eq_of_testBit_eq fun n => ?_
  rw [← bit_eq_testBit, ← bit_eq_testBit, bit_putBits hle, merged_eq]
  by_cases hn : lo ≤ n ∧ n ≤ hi
  · have hin : n - lo < hi + 1 - lo := by omega
    rw [bit_foldl_mergeField_in hapart hmem hn, if_pos hn, bit_bits]
    simp [Acc.unkept, keepsField, Acc.x, Acc.s, hin, Nat.add_sub_cancel' hn.1]
  · rw [if_neg hn]
    by_cases hf : ∃ f ∈ x.row.flds, f.has n
    · obtain ⟨f, hf, hfn⟩ := hf
      rw [bit_foldl_mergeField_in hapart hf hfn, hkept f hf, hw n hn]
      simp
    · push Not at hf
      exact bit_foldl_mergeField_out hapart.1 hf

theorem rd_lt (d : Dev) (p o : Nat) : d.rd p o < 2 ^ 32 := (tget _ d.regs _).isLt

end Dev

theorem bit_setBit_same (w n : Nat) (b : Bool) : bit (setBit w n b) n = b := by
  cases b
  · exact bit_setBit_false w n
  · exact bit_setBit_true w n

/-- Bit 0 alone changes. -/
theorem bit_setBit_zero_ne {w n : Nat} {b : Bool} (h : n ≠ 0) : bit (setBit w 0 b) n = bit w n := by
  cases b
  · unfold setBit
    split
    · rfl
    next hset =>
      obtain ⟨m, rfl⟩ := Nat.exists_eq_succ_of_ne_zero h
      have hodd : w % 2 = 1 := by simpa [bit] using hset
      have hhalf : (w - 1) / 2 = w / 2 := by omega
      simp only [bit, Bool.false_eq_true, if_false, pow_succ', pow_zero, ← Nat.div_div_eq_div_mul, hhalf]
  · exact bit_setBit_true_ne h

theorem w32_setBit_zero {w : Nat} (b : Bool) (h : w < 2 ^ 32) : (w32 (setBit w 0 b)).toNat = setBit w 0 b := by
  have hlt : setBit w 0 b < 2 ^ 32 := by
    cases b
    · unfold setBit
      split <;> simp <;> omega
    · unfold setBit
      split
      · exact h
      next hset =>
        have heven : w % 2 = 0 := by simpa [bit] using hset
        simp
        omega
  rw [w32, BitVec.toNat_ofNat, Nat.mod_eq_of_lt hlt]

/-- A command that writes a fixed word to a register of one bit that takes it: the register, and its effect. -/
theorem busRow_bit {s : State} {rq : Req} {o v : Nat} {w : Word} {x : Hit} (hv : w.toNat = v)
    (h : s.dev.refusal s.now rq x.page o v true = none) (hf : findReg x.page o = some x) (hfl : x.row.flds = [fAny 0 0 .rw])
    (hc : Dev.commonOff o = false := by decide) (hheld : Dev.heldElse x.page o = false := by decide)
    (hcfg : ¬(x.page = 2 ∧ o = 0x20) := by decide) :
    busRow s rq x.page o w = .next (s.withDev ((s.dev.wrFld x.page o 0 0 (bits v 0 0)).regEffect s.now x o v
      (s.dev.merged rq x o v) (s.dev.rd x.page o))) := by
  subst hv
  rw [busRow_held h hf hc hheld hcfg, Dev.wr_merged_rw hfl]

/-- One that writes to a register of one field that keeps nothing. -/
theorem busRow_strobe {s : State} {rq : Req} {o v hi lo : Nat} {w : Word} {x : Hit} (hv : w.toNat = v)
    (h : s.dev.refusal s.now rq x.page o v true = none) (hf : findReg x.page o = some x)
    (hfl : x.row.flds = [fAny hi lo .wo])
    (hc : Dev.commonOff o = false := by decide) (hheld : Dev.heldElse x.page o = false := by decide)
    (hcfg : ¬(x.page = 2 ∧ o = 0x20) := by decide) :
    busRow s rq x.page o w = .next (s.withDev ((s.dev.wrFld x.page o hi lo 0).regEffect s.now x o v
      (s.dev.merged rq x o v) (s.dev.rd x.page o))) := by
  subst hv
  rw [busRow_held h hf hc hheld hcfg, Dev.wr_merged_wo hfl]

/-- RX_CFG as it stands, with EN set or cleared: EN alone changes. -/
theorem busRow_rxCfg {s : State} {rq : Req} {n : Nat} {b : Bool} (hn : n < 8)
    (h : s.dev.refusal s.now rq 0x30 (0x100 + 0x40 * n) (setBit (s.dev.rd 0x30 (0x100 + 0x40 * n)) 0 b) true = none) :
    busRow s rq 0x30 (0x100 + 0x40 * n) (w32 (setBit (s.dev.rd 0x30 (0x100 + 0x40 * n)) 0 b)) =
      .next (s.withDev ((s.dev.wrFld 0x30 (0x100 + 0x40 * n) 0 0 (b2n b)).regEffect s.now (rxCfgReg n) (0x100 + 0x40 * n)
        (setBit (s.dev.rd 0x30 (0x100 + 0x40 * n)) 0 b) 0 (s.dev.rd 0x30 (0x100 + 0x40 * n)))) := by
  have hw := w32_setBit_zero b (s.dev.rd_lt 0x30 (0x100 + 0x40 * n))
  have hmerged : s.dev.merged rq (rxCfgReg n) (0x100 + 0x40 * n) (setBit (s.dev.rd 0x30 (0x100 + 0x40 * n)) 0 b) =
      putBits (s.dev.rd 0x30 (0x100 + 0x40 * n)) 0 0 (b2n b) := by
    have hbit : bits (setBit (s.dev.rd 0x30 (0x100 + 0x40 * n)) 0 b) 0 0 = b2n b := by
      have := bit_setBit_same (s.dev.rd 0x30 (0x100 + 0x40 * n)) 0 b
      simp only [bit, pow_zero, Nat.div_one] at this
      cases b
      · simpa [bits, b2n] using this
      · simpa [bits, b2n] using this
    rw [← hbit]
    exact Dev.merged_one_field (l := []) (findReg_rxCfg n hn) (by simp [rxCfgReg, regs, fAny]) (by simp [rxCfgReg, regs]; decide)
      (fun m hm => bit_setBit_zero_ne (by omega))
  rw [← hw] at h
  rw [busRow_held h (findReg_rxCfg n hn) (commonOff_of_le (by omega)) (heldElse_stream _) (by omega), hw, hmerged,
    Dev.regEffect_rxCfg, Dev.regEffect_rxCfg]
  rfl

/-- Settles O27. -/
theorem measurementAndStreamWritesAct : Obligations.MeasurementAndStreamWritesAct := by
  unfold Obligations.MeasurementAndStreamWritesAct
  refine ⟨fun rq w s => ⟨fun k hk h hrun => ?_, fun k hk h hrun => ?_, fun h hrun => ?_, fun h hen => ?_, fun h => ?_,
    fun h => ?_, fun h => ?_, fun h => ?_⟩, fun rq n s hn => ⟨fun h hen => ?_, fun h hen => ?_, fun h => ?_⟩⟩
  · have hold : bit (s.dev.rd (chCtrlReg k).page (0x100 + 0x20 * k)) 0 = false := hrun
    refine (busRow_bit (w := 1) (v := 1) (x := chCtrlReg k) rfl h (findReg_chCtrl k hk) rfl (commonOff_of_le (by omega))
      (heldElse_prism _) (by simp [chCtrlReg])).trans ?_
    rw [Dev.regEffect_chCtrl hk, if_pos (by simpa [bit] using hold)]
    rfl
  · have hold : bit (s.dev.rd (chCtrlReg k).page (0x100 + 0x20 * k)) 0 = true := hrun
    refine (busRow_bit (w := 0) (v := 0) (x := chCtrlReg k) rfl h (findReg_chCtrl k hk) rfl (commonOff_of_le (by omega))
      (heldElse_prism _) (by simp [chCtrlReg])).trans ?_
    rw [Dev.regEffect_chCtrl hk, if_neg (by simp [bit]), if_pos (by simpa [bit] using hold)]
    rfl
  · have hold : bit (s.dev.rd waveCtrlReg.page 0x20) 0 = false := hrun
    refine (busRow_bit (w := 1) (v := 1) (x := waveCtrlReg) rfl h rfl rfl).trans ?_
    rw [Dev.regEffect_waveCtrl, if_pos (by simpa [bit] using hold)]
    rfl
  · have hold : bit (s.dev.rd captureCtrlReg.page 0x20) 0 = false := hen
    refine (busRow_bit (w := 1) (v := 1) (x := captureCtrlReg) rfl h rfl rfl).trans ?_
    rw [Dev.regEffect_captureCtrl, if_pos (by simpa [bit] using hold)]
    rfl
  · refine (busRow_strobe (w := 1) (v := 1) (x := trigReg) rfl h rfl rfl).trans ?_
    rw [Dev.regEffect_trig, if_pos (by decide)]
    rfl
  · refine (busRow_strobe (x := relReg) rfl h rfl rfl).trans ?_
    rw [Dev.regEffect_rel]
    rfl
  · refine (busRow_strobe (w := 1) (v := 1) (x := popReg) rfl h rfl rfl).trans ?_
    rw [Dev.regEffect_pop]
    rfl
  · refine (busRow_strobe (w := 1) (v := 1) (x := arrPopReg) rfl h rfl rfl).trans ?_
    rw [Dev.regEffect_arrPop]
    rfl
  · have hold : bit (s.dev.rd 0x30 (0x100 + 0x40 * n)) 0 = false := hen
    refine (busRow_rxCfg hn h).trans ?_
    rw [Dev.regEffect_rxCfg, hold, bit_setBit_true, if_pos (by decide)]
    rfl
  · have hold : bit (s.dev.rd 0x30 (0x100 + 0x40 * n)) 0 = true := hen
    refine (busRow_rxCfg hn h).trans ?_
    rw [Dev.regEffect_rxCfg, hold, bit_setBit_false, if_neg (by decide), if_pos (by decide)]
    rfl
  · refine (busRow_strobe (w := 1) (v := 1) (x := txSyncReg n) rfl h (findReg_txSync n hn) rfl (commonOff_of_le (by omega))
      (heldElse_stream _) (by simp [txSyncReg])).trans ?_
    rw [Dev.regEffect_txSync, if_pos (by decide)]
    rfl

end Sys2Proof.Machine
end

section
/-! Reads of BAR0 and QSPI frames (chapter 16): what a read answers and what it moves on. -/

namespace Sys2Proof.Machine

/-- OUT[k] in the register table. -/
def outReg (k : Nat) : Hit := ⟨⟨[0x28], 0x10C, 0x20, 16, 4, 5, [], [0]⟩, 0x28, k, 1⟩

theorem findReg_out : ∀ k < 16, findReg 0x28 (0x110 + 0x20 * k) = some (outReg k) := by decide

theorem readRow_eq (s : State) (rq : Req) (p o : Nat) (acc : Access) :
    readRow s rq p o acc = .next (s.withDev ((s.dev.accessRead s.now s.ring.seq rq p o acc).2.answered rq
      (s.dev.accessRead s.now s.ring.seq rq p o acc).1)) := rfl

namespace Dev

/-- The device after a read whose quantity is one of 64 bits: the lower half latches the upper one, which consumes it. -/
def readLatch (d : Dev) (k v : Nat) : Dev :=
  { d with free := d.free + 1 }.modBus (fun b => { b with latch := tset 0 b.latch k v })

section
variable {d : Dev} {now seq p o q : Nat} {rq : Req} {x : Hit}

theorem regWord_pair {up : Bool} {rq : Nat} (hon : d.pageOn p = true) (hc : commonOff o = false) (hf : findReg p o = some x)
    (hp : d.pair now p o = some (q, up)) : d.regWord now seq rq p o = if up then hi32 q else lo32 q := by
  simp [regWord, hon, hc, hf, hp]

theorem regWord_live {v rq : Nat} (hon : d.pageOn p = true) (hc : commonOff o = false) (hf : findReg p o = some x)
    (hp : d.pair now p o = none) (hl : d.readLive now seq rq x o = some v) : d.regWord now seq rq p o = v := by
  simp [regWord, hon, hc, hf, hp, hl]

theorem busRead_lower (hon : d.pageOn p = true) (hc : commonOff o = false) (hf : findReg p o = some x)
    (hp : d.pair now p o = some (q, false)) :
    d.busRead now seq rq p o = (lo32 q, d.readLatch (latchKey rq p (o + 4)) (hi32 q + 1)) := by
  simp only [busRead, regWord_pair hon hc hf hp, hon, hc, hf, hp]
  rfl

theorem busRead_upper (hon : d.pageOn p = true) (hc : commonOff o = false) (hf : findReg p o = some x)
    (hp : d.pair now p o = some (q, true)) :
    d.busRead now seq rq p o =
      (if tget 0 d.bus.latch (latchKey rq p o) = 0 then hi32 q else tget 0 d.bus.latch (latchKey rq p o) - 1,
        d.readLatch (latchKey rq p o) 0) := by
  simp only [busRead, regWord_pair hon hc hf hp, hon, hc, hf, hp]
  rfl

/-- A page that is off and an offset that holds no register answer 0. -/
theorem busRead_nothing (h : d.pageOn p = false ∨ (commonOff o = false ∧ findReg p o = none)) :
    d.busRead now seq rq p o = (0, { d with free := d.free + 1 }) := by
  rcases h with hoff | ⟨hc, hf⟩
  · simp [busRead, regWord, hoff]
  · simp only [busRead, regWord, hc, hf]
    cases d.pageOn p <;> rfl

/-- A register that reads live and is no 64-bit quantity, outside PRISM. -/
theorem busRead_live {v : Nat} (hon : d.pageOn p = true) (hc : commonOff o = false) (hf : findReg p o = some x)
    (hp : d.pair now p o = none) (hl : d.readLive now seq (rqNo rq) x o = some v) (hpage : p ≠ 0x28) :
    d.busRead now seq rq p o = (v, { d with free := d.free + 1 }.readNext p o) := by
  simp [busRead, regWord_live hon hc hf hp hl, hon, hc, hf, hp, hpage]

end

/-- The latches are no part of what a 64-bit quantity is. -/
theorem pair_readLatch (d : Dev) (k v now p o : Nat) : (d.readLatch k v).pair now p o = d.pair now p o := rfl
theorem pageOn_readLatch (d : Dev) (k v p : Nat) : (d.readLatch k v).pageOn p = d.pageOn p := rfl

end Dev

theorem readRow_nothing {s : State} {rq : Req} {p o : Nat}
    (h : s.dev.pageOn p = false ∨ (Dev.commonOff o = false ∧ findReg p o = none)) :
    readRow s rq p o = .next (s.withDev (({ s.dev with free := s.dev.free + 1 } : Dev).answer rq 0)) := by
  simp only [readRow_eq, Dev.accessRead, Dev.busRead_nothing h]
  rfl

theorem readRow_live {s : State} {rq : Req} {p o v : Nat} {x : Hit} (hon : s.dev.pageOn p = true)
    (hc : Dev.commonOff o = false) (hf : findReg p o = some x) (hp : s.dev.pair s.now p o = none)
    (hl : s.dev.readLive s.now s.ring.seq (rqNo rq) x o = some v) (hpage : p ≠ 0x28) :
    readRow s rq p o =
      .next (s.withDev ((({ s.dev with free := s.dev.free + 1 } : Dev).readNext p o).answer rq v)) := by
  simp only [readRow_eq, Dev.accessRead, Dev.busRead_live hon hc hf hp hl hpage]
  rfl

/-- Settles O12. -/
theorem pairReadsLatchAndReadsOfNothingAnswerZero : Obligations.PairReadsLatchAndReadsOfNothingAnswerZero := by
  unfold Obligations.PairReadsLatchAndReadsOfNothingAnswerZero
  refine ⟨fun rq page off q s hon hc hf => ?_, fun rq page off s h => readRow_nothing h⟩
  obtain ⟨x, hf⟩ := Option.isSome_iff_exists.mp hf
  refine ⟨fun hp => ?_, fun hp => ?_, fun first n hp => ?_, fun first n hp => ?_, fun hp hp4 hc4 hf4 => ?_⟩
  · refine (readRow_eq s rq page off .word).trans ?_
    rw [Dev.accessRead, Dev.busRead_lower hon hc hf hp]
    rfl
  · refine (readRow_eq s rq page off .word).trans ?_
    rw [Dev.accessRead, Dev.busRead_upper hon hc hf hp]
    rfl
  · refine (readRow_eq s rq page off (.bytes first n)).trans ?_
    rw [Dev.accessRead, Dev.busRead_lower hon hc hf hp]
    rfl
  · refine (readRow_eq s rq page off (.bytes first n)).trans ?_
    rw [Dev.accessRead, Dev.busRead_upper hon hc hf hp]
    rfl
  · obtain ⟨y, hf4⟩ := Option.isSome_iff_exists.mp hf4
    have hlow := Dev.busRead_lower (seq := s.ring.seq) (rq := rq) hon hc hf hp
    have hup := Dev.busRead_upper (d := s.dev.readLatch (latchKey rq page (off + 4)) (hi32 q + 1)) (seq := s.ring.seq)
      (rq := rq) ((Dev.pageOn_readLatch _ _ _ _).trans hon) hc4 hf4 ((Dev.pair_readLatch _ _ _ _ _ _).trans hp4)
    have hlatch : tget 0 (s.dev.readLatch (latchKey rq page (off + 4)) (hi32 q + 1)).bus.latch (latchKey rq page (off + 4)) =
        hi32 q + 1 := tget_tset_same ..
    rw [hlatch, if_neg (by omega), Nat.add_sub_cancel] at hup
    have hread : s.dev.accessRead s.now s.ring.seq rq page off .pair = ([lo32 q, hi32 q],
        (s.dev.readLatch (latchKey rq page (off + 4)) (hi32 q + 1)).readLatch (latchKey rq page (off + 4)) 0) := by
      simp only [Dev.accessRead, hlow, hup]
    refine ⟨_, (readRow_eq s rq page off .pair).trans (by rw [hread]; rfl), ?_, fun k hk => ?_, ?_⟩
    · cases rq <;> exact tget_tset_same ..
    · cases rq <;> exact (tget_tset_ne _ _ _ _ _ _ hk).trans (tget_tset_ne _ _ _ _ _ _ hk)
    · cases rq <;> rfl

namespace Dev

theorem pair_cdata (d : Dev) (now : Nat) : d.pair now 0x20 0x64 = none := rfl
theorem pair_lcodeData (d : Dev) (now : Nat) : d.pair now 0x24 0x24 = none := rfl
theorem pair_rdData (d : Dev) (now : Nat) : d.pair now 0x29 0x104 = none := rfl
theorem pair_prism (d : Dev) (now o : Nat) : d.pair now 0x28 o = none := by simp [pair]

end Dev

/-- A read of CDATA answers coefficient K of the context CSEL names, 0 where it names context 0 (R215). -/
theorem readRow_cdata {s : State} {rq : Req} (hon : s.dev.pageOn 0x20 = true) :
    readRow s rq 0x20 0x64 = .next (s.withDev ((({ s.dev with free := s.dev.free + 1 } : Dev).readNext 0x20 0x64).answer rq
      (if s.dev.fld 0x20 0x60 13 8 = 0 then 0
        else ux 16 (tget 0 (s.dev.cx (s.dev.fld 0x20 0x60 13 8)).k (s.dev.fld 0x20 0x60 5 0))))) :=
  readRow_live (x := ⟨reg 0x20 0x064 0 [fAny 15 0 .rw], 0x20, 0, 0⟩) hon rfl rfl (Dev.pair_cdata _ _) rfl (by decide)

/-- A read of LCODE:DATA answers the word at ADDR while the page is unlocked (R200). -/
theorem readRow_lcodeData {s : State} {rq : Req} (hon : s.dev.pageOn 0x24 = true) :
    readRow s rq 0x24 0x24 = .next (s.withDev ((({ s.dev with free := s.dev.free + 1 } : Dev).readNext 0x24 0x24).answer rq
      (if (s.dev.pg 0x24).unlocked then (tget 0 s.dev.lat.code (s.dev.fld 0x24 0x20 13 0)).toNat else 0))) :=
  readRow_live (x := ⟨reg 0x24 0x024 0 [fAny 31 0 .rwx], 0x24, 0, 0⟩) hon rfl rfl (Dev.pair_lcodeData _ _) rfl (by decide)

/-- A read of RD_DATA answers tap TAP of the response that PRESP names (R292). -/
theorem readRow_rdData {s : State} {rq : Req} (hon : s.dev.pageOn 0x29 = true) :
    readRow s rq 0x29 0x104 = .next (s.withDev ((({ s.dev with free := s.dev.free + 1 } : Dev).readNext 0x29 0x104).answer rq
      (ux 24 (listGet (s.dev.respOf (s.dev.flag 0x29 0x100 20) (s.dev.fld 0x29 0x100 19 16)).coef
        (s.dev.fld 0x29 0x100 8 0))))) :=
  readRow_live (x := ⟨roReg [0x29] 0x104 0 1, 0x29, 0, 0⟩) hon rfl rfl (Dev.pair_rdData _ _) rfl (by decide)

namespace Dev

/-- The window's own field after it moved on. -/
theorem fld_wrFld_same {d : Dev} {p o hi lo v : Nat} (h : lo ≤ hi) (hhi : hi < 32) (hv : v < 2 ^ (hi + 1 - lo)) :
    (d.wrFld p o hi lo v).fld p o hi lo = v := by
  rw [wrFld, fld_wr_same hhi, bits_putBits_same h, Nat.mod_eq_of_lt hv]

theorem fld_wrFld_ne {d : Dev} {p o hi lo v hi' lo' : Nat} (h : lo ≤ hi) (hhi : hi' < 32) (hne : hi < lo' ∨ hi' < lo) :
    (d.wrFld p o hi lo v).fld p o hi' lo' = d.fld p o hi' lo' := by
  rw [wrFld, fld_wr_same hhi, bits_putBits_ne h hne, fld]

/-- A read of OUT[k] answers the channel's published output and latches its stamp (R292). -/
theorem busRead_out {d : Dev} {now seq k : Nat} {rq : Req} (hk : k < 16) (hon : d.pageOn 0x28 = true) :
    d.busRead now seq rq 0x28 (0x110 + 0x20 * k) =
      (b2n (d.chan k).valid * 2 ^ 31 + (d.chan k).out.stamp % 16 * 2 ^ 24 + ux 24 (d.chan k).out.val,
        { d with free := d.free + 1 }.modBus (fun b => { b with
          latch := tset 0 (tset 0 b.latch (latchKey rq 0x28 (0x110 + 0x20 * k + 4)) (lo32 ((d.chan k).out.stamp / 16)))
            (latchKey rq 0x28 (0x110 + 0x20 * k + 8)) (hi32 ((d.chan k).out.stamp / 16)) })) := by
  have hc : commonOff (0x110 + 0x20 * k) = false := commonOff_of_le (by omega)
  have hlive : d.readLive now seq (rqNo rq) (outReg k) (0x110 + 0x20 * k) =
      some (b2n (d.chan k).valid * 2 ^ 31 + (d.chan k).out.stamp % 16 * 2 ^ 24 + ux 24 (d.chan k).out.val) := by
    change d.readPrism (rqNo rq) (outReg k) (0x110 + 0x20 * k) = _
    unfold readPrism
    dsimp only [outReg]
    rw [if_neg (by omega), if_neg (by omega), if_neg (by omega), if_pos (by omega), if_neg (by omega), if_pos (by omega)]
    rfl
  have hidx : (0x110 + 0x20 * k - 0x100) / 0x20 = k := by omega
  have hlo : 0x100 ≤ 0x110 + 0x20 * k ∧ 0x110 + 0x20 * k < 0x300 := by omega
  have hmod : (0x110 + 0x20 * k) % 0x20 = 0x10 := by omega
  simp only [busRead, regWord_live hon hc (findReg_out k hk) (pair_prism _ _ _) hlive, hon, hc, findReg_out k hk, pair_prism, hlo,
    hmod, hidx]
  rfl

end Dev

/-- Settles O13. -/
theorem windowAndOutputReadsMoveOn : Obligations.WindowAndOutputReadsMoveOn := by
  unfold Obligations.WindowAndOutputReadsMoveOn
  refine ⟨fun rq s => ⟨fun hon => ⟨fun hcsel => ⟨?_, ?_, ?_⟩, fun hcsel => ?_⟩, fun hon => ⟨fun hlock => ⟨?_, ?_⟩, fun hlock => ?_⟩,
    fun hon => ⟨fun hn hn' => ⟨?_, ?_⟩, fun hn => ?_⟩⟩, fun rq k s hk hon => ?_⟩
  · refine (readRow_cdata hon).trans ?_
    rw [if_neg hcsel]
    have hnext : ({ s.dev with free := s.dev.free + 1 } : Dev).readNext 0x20 0x64 =
        ({ s.dev with free := s.dev.free + 1 } : Dev).cselNext := if_neg hcsel
    rw [hnext]
    rfl
  · exact Dev.fld_wrFld_same (by decide) (by decide) (Nat.mod_lt _ (by decide))
  · exact Dev.fld_wrFld_ne (by decide) (by decide) (.inl (by decide))
  · refine (readRow_cdata hon).trans ?_
    rw [if_pos hcsel]
    have hnext : ({ s.dev with free := s.dev.free + 1 } : Dev).readNext 0x20 0x64 =
        ({ s.dev with free := s.dev.free + 1 } : Dev) := if_pos hcsel
    rw [hnext]
  · refine (readRow_lcodeData hon).trans ?_
    rw [if_pos hlock]
    have hnext : ({ s.dev with free := s.dev.free + 1 } : Dev).readNext 0x24 0x24 =
        ({ s.dev with free := s.dev.free + 1 } : Dev).lcodeNext := if_pos hlock
    rw [hnext]
    rfl
  · exact Dev.fld_wrFld_same (by decide) (by decide) (Nat.mod_lt _ (by decide))
  · refine (readRow_lcodeData hon).trans ?_
    have hnext : ({ s.dev with free := s.dev.free + 1 } : Dev).readNext 0x24 0x24 =
        ({ s.dev with free := s.dev.free + 1 } : Dev) := if_neg (ne_true_of_eq_false hlock)
    rw [if_neg (ne_true_of_eq_false hlock), hnext]
  · refine (readRow_rdData hon).trans ?_
    have hnext : ({ s.dev with free := s.dev.free + 1 } : Dev).readNext 0x29 0x104 =
        ({ s.dev with free := s.dev.free + 1 } : Dev).wrFld 0x29 0x100 8 0 ((s.dev.fld 0x29 0x100 8 0 + 1) %
          (s.dev.respOf (s.dev.flag 0x29 0x100 20) (s.dev.fld 0x29 0x100 19 16)).n) := if_neg hn
    rw [hnext]
  · exact Dev.fld_wrFld_same (by decide) (by decide)
      ((Nat.mod_lt _ (Nat.pos_of_ne_zero hn)).trans_le (hn'.trans (by decide)))
  · refine (readRow_rdData hon).trans ?_
    have hnext : ({ s.dev with free := s.dev.free + 1 } : Dev).readNext 0x29 0x104 =
        ({ s.dev with free := s.dev.free + 1 } : Dev) := if_pos hn
    rw [hnext]
  · refine (readRow_eq s rq 0x28 (0x110 + 0x20 * k) .word).trans ?_
    have hlo : 0x110 + 0x20 * k + 4 = 0x114 + 0x20 * k := by omega
    have hhi : 0x110 + 0x20 * k + 8 = 0x118 + 0x20 * k := by omega
    rw [Dev.accessRead, Dev.busRead_out hk hon, hlo, hhi]
    rfl

/-- Settles O14, opcode by opcode. -/
theorem qspiFramesActByOpcode : Obligations.QspiFramesActByOpcode := by
  unfold Obligations.QspiFramesActByOpcode
  intro opcode addr nread w words cut s hon haddr
  have hexec : ∀ ws n c, exec (.qspiFrame opcode addr ws n c) s =
      .next (s.withDev (s.dev.doQspi s.now s.ring.seq opcode addr ws n c)) := fun _ _ _ => rfl
  refine ⟨fun h1 h2 h3 h4 => ?_, fun hop => ?_, fun hop => ?_⟩
  · simp [hexec, Dev.doQspi, hon, qspiRead, qspiWrite, h1, h2, h3, h4]
  · have hread : qspiRead opcode = true := by simpa [qspiRead] using hop
    simp [hexec, Dev.doQspi, hon, hread, Dev.qspiReads]
  · have hwrite : qspiWrite opcode = true := by simpa [qspiWrite] using hop
    have hread : qspiRead opcode = false := by rcases hop with rfl | rfl <;> rfl
    rw [hexec]
    simp only [Dev.doQspi, hon, hread, hwrite]
    rfl

end Sys2Proof.Machine
end

section
/-! Where window reads and the writes of pages, PRISM, WAVE, CAPTURE, PHASOR and STREAM complete: what a write over PCIe has
to pass, register by register. -/

namespace Sys2Proof.Machine
namespace Dev

section
variable {d : Dev} {now p o w : Nat} {x : Hit}

/-- A page that takes a write over PCIe: its domain is on, it is READY, and the stage is READY or RUN (R405, Table 15.1). -/
structure Takes (d : Dev) (p : Nat) : Prop where
  stage : d.stage = .ready ∨ d.stage = .run
  on : d.pageOn p = true
  ready : (d.pg p).ready = true

theorem Takes.page (h : d.Takes p) : d.pageTakes .pcie p = true := by
  obtain ⟨_, hon, hready⟩ := h
  simp [pageTakes, hon, hready]

theorem Takes.byStage (h : d.Takes p) (o : Nat) : d.stageTakes p o = true := by
  rcases h.stage with hs | hs <;> simp [stageTakes, hs]

/-- It accepts a whole write of a common register that the register's own check passes. -/
theorem Takes.accepts_common (h : d.Takes p) (hc : commonOff o = true) (hw : checkCommon p o w = []) :
    d.refusal now .pcie p o w true = none := by
  rw [refusal_eq_none_iff, reasons]
  simp [h.page, hc, hw, h.byStage, whenR]

/-- It accepts a whole write of a register of its own that every check passes. -/
theorem Takes.accepts (h : d.Takes p) (hc : commonOff o = false) (hf : findReg p o = some x)
    (haccess : d.checkAccess .pcie x o w = []) (hmeas : d.checkMeas x o w = [])
    (hcore : d.checkCore now .pcie x o w = [] := by rfl) (hdrive : d.checkDrive x o w = [] := by rfl)
    (hctl : d.checkCtl .pcie x o w = [] := by rfl) (hmodel : d.checkModel x o w = [] := by rfl) :
    d.refusal now .pcie p o w true = none :=
  (refusal_own_eq_none_iff hc hf).mpr
    ⟨h.page, nofun, haccess, fun _ => h.byStage o, hcore, hdrive, hctl, hmeas, hmodel⟩

/-- The access codes pass a register of one field that takes any value and is bound by no lock and no owner. -/
theorem checkAccess_one_field {hi lo : Nat} {a : Acc} {rq : Req} (hfl : x.row.flds = [fAny hi lo a]) (hw : putBits w hi lo 0 = 0)
    (ha : a = .rw ∨ a = .wo) : d.checkAccess rq x o w = [] := by
  rcases ha with rfl | rfl <;>
    simp [checkAccess, Row.writable, Row.reserved, Fld.takes, Acc.x, Acc.s, hfl, fAny, hw, whenR]

end

theorem commonOff_key : commonOff 0x1C = true := rfl

/-- A write of EVT_MASK changes the mask of its page and, where a message leaves, what the bus has sent. -/
theorem maskWrite_frame (d : Dev) (p w : Nat) :
    ∃ b, d.maskWrite p w = { d.updPage p (fun q => { q with mask := w }) with bus := b } := by
  unfold maskWrite
  dsimp only
  split
  · exact pageMsix_eq _ p
  · exact ⟨_, rfl⟩

/-- One of EVT_PEND clears event bits of its page. -/
theorem pendWrite_frame (d : Dev) (p w : Nat) :
    ∃ b, d.pendWrite p w = { d.updPage p (fun q =>
      { q with raw := ofBits ((onBits 32 q.raw).filter (fun n => !bit w n)) }) with bus := b } := by
  unfold pendWrite
  dsimp only
  split
  · exact pageMsix_eq _ p
  · exact ⟨_, rfl⟩

theorem pg_updPage_bus (d : Dev) (p : Nat) (f : Page → Page) (b : Bus) : ({ d.updPage p f with bus := b } : Dev).pg p = f (d.pg p) :=
  pg_updPage_same d p f

/-- A read of RD_DATA leaves PRISM's state. -/
theorem prism_readNext_rdData (d : Dev) : (d.readNext 0x29 0x104).prism = d.prism := by
  change (if (d.respOf (d.flag 0x29 0x100 20) (d.fld 0x29 0x100 19 16)).n = 0 then d else _).prism = d.prism
  split <;> rfl

theorem chan_chanQuiet_st (d : Dev) (now k : Nat) (st : ChanState) : ((d.chanQuiet now k st).chan k).st = st := by
  simp [chanQuiet]

/-- A stopped channel is STOPPED (R283). -/
theorem chan_chanStop_st (d : Dev) (now k : Nat) : ((d.chanStop now k).chan k).st = .stopped := by
  unfold chanStop
  split
  next h => simpa using h
  next => exact chan_chanQuiet_st d now k .stopped

/-- A start leads a STOPPED channel to its settling (R282). -/
theorem chan_chanStart_st (d : Dev) (now k : Nat) (h : (d.chan k).st = .stopped) :
    ((d.chanStart now k).chan k).st = .starting := by
  simp [chanStart, h]

end Dev

/-- The writes of a page's common registers complete (R403, R416). -/
theorem pageWritesComplete {s : State} {page : Nat} (w : Word) (h : s.dev.Takes page) :
    ((w = 0xE5A7 ∨ w = 0) → exec (.pageKey .pcie page w) s =
      .next (s.withDev (s.dev.updPage page (fun q => { q with unlocked := w == 0xE5A7 })))) ∧
    (w.toNat &&& evtBits page = w.toNat →
      (∃ b, exec (.evtMaskWrite .pcie page w) s =
        .next (s.withDev { s.dev.updPage page (fun q => { q with mask := w.toNat }) with bus := b })) ∧
      (∃ b, exec (.evtPendClear .pcie page w) s =
        .next (s.withDev { s.dev.updPage page (fun q =>
          { q with raw := ofBits ((onBits 32 q.raw).filter (fun n => !bit w.toNat n)) }) with bus := b }))) := by
  refine ⟨fun hw => ?_, fun hw => ⟨?_, ?_⟩⟩
  · have hcheck : Dev.checkCommon page 0x1C w.toNat = [] := by rcases hw with rfl | rfl <;> rfl
    refine (busRow_eq s .pcie page 0x1C w).trans ?_
    rw [Dev.busWrite_common (h.accepts_common rfl hcheck) rfl]
    rcases hw with rfl | rfl <;> rfl
  · have hcheck : Dev.checkCommon page 0x14 w.toNat = [] := whenR_eq_nil.mpr (by simpa using hw)
    obtain ⟨b, hb⟩ := s.dev.maskWrite_frame page w.toNat
    refine ⟨b, (busRow_eq s .pcie page 0x14 w).trans ?_⟩
    rw [Dev.busWrite_common (h.accepts_common rfl hcheck) rfl, ← hb]
    rfl
  · have hcheck : Dev.checkCommon page 0x18 w.toNat = [] := whenR_eq_nil.mpr (by simpa using hw)
    obtain ⟨b, hb⟩ := s.dev.pendWrite_frame page w.toNat
    refine ⟨b, (busRow_eq s .pcie page 0x18 w).trans ?_⟩
    rw [Dev.busWrite_common (h.accepts_common rfl hcheck) rfl, ← hb]
    rfl

/-- DEV:VIOL_CLR in the register table. -/
def violClrReg : Hit := ⟨reg 0 0x408 0 [fAny 31 0 .wox], 0, 0, 0⟩

/-- A field that is WOX keeps nothing either (Table 0.3). -/
theorem Dev.merged_wox {d : Dev} {rq : Req} {x : Hit} {o w hi lo : Nat} {l : List (Nat × Nat)}
    (h : x.row.flds = [⟨hi, lo, .wox, l⟩]) : d.merged rq x o w = putBits (d.rd x.page o) hi lo 0 := by
  rw [Dev.merged_eq, h]
  rfl

theorem Dev.regEffect_violClr (d : Dev) (now w v old : Nat) :
    d.regEffect now violClrReg 0x408 w v old = { d with viol := {} } := rfl

/-- VIOL_CLR completes while the page is unlocked (R405). -/
theorem violClr_completes {s : State} (w : Word) (h : s.dev.Takes 0) (hkey : (s.dev.pg 0).unlocked = true) :
    exec (.violClr .pcie w) s =
      .next (s.withDev { s.dev.wrFld 0 0x408 31 0 0 with viol := { count := 0, last := 0 } }) := by
  have hres : putBits w.toNat 31 0 0 = 0 := by
    have := w.isLt
    simp [putBits]
    omega
  have haccess : s.dev.checkAccess .pcie violClrReg 0x408 w.toNat = [] := by
    simp [Dev.checkAccess, violClrReg, reg, fAny, Row.writable, Row.reserved, Fld.takes, Acc.x, Acc.s, hkey, hres, whenR]
  have hok : s.dev.refusal s.now .pcie 0 0x408 w.toNat true = none := h.accepts rfl (x := violClrReg) rfl haccess rfl
  refine (busRow_held (x := violClrReg) hok rfl).trans ?_
  rw [Dev.regEffect_violClr, Dev.merged_wox (x := violClrReg) rfl]
  rfl

namespace Dev
section
variable {d : Dev} {now k n : Nat}

/-- A start of a channel that the clock, the response, the input and the engine allow is accepted (R278, R282). -/
theorem accepts_channelStart (h : d.Takes 0x28) (hk : k < 16) (hclk : d.clkOk = true)
    (hbank : d.chAux k = true → (d.bankOf (d.chResp k)).loaded = true ∧ tget none d.prism.loading (d.chResp k) = none)
    (hsd15 : k = 15 → d.flag 0x28 0x28 0 = true) (hcap : d.demand + d.demand1 k ≤ 6553) :
    d.refusal now .pcie 0x28 (0x100 + 0x20 * k) 1 true = none := by
  have hmode : d.clkMode ≠ 0 := fun h0 => by simp [clkOk, h0] at hclk
  have hstate : (d.clkMode == 2 && !d.clkOk || d.chAux k && (!(d.bankOf (d.chResp k)).loaded ||
      (tget none d.prism.loading (d.chResp k)).isSome)) = false := by
    cases haux : d.chAux k
    · simp [hclk]
    · obtain ⟨hl, hfree⟩ := hbank haux
      simp [hclk, hl, hfree]
  have hrel : (d.clkMode == 0 || k == 15 && !d.flag 0x28 0x28 0 || decide (prismCap < d.demand + d.demand1 k)) = false := by
    have h15 : (k == 15 && !d.flag 0x28 0x28 0) = false := by
      by_cases hk15 : k = 15
      · simp [hsd15 hk15]
      · simp [hk15]
    have hfits : decide (prismCap < d.demand + d.demand1 k) = false := decide_eq_false (Nat.not_lt.mpr hcap)
    simp [hmode, h15, hfits]
  refine h.accepts (commonOff_of_le (by omega)) (findReg_chCtrl k hk) (checkAccess_one_field rfl rfl (.inl rfl)) ?_
  unfold checkMeas
  dsimp only [chCtrlReg]
  rw [if_pos rfl, if_neg (by omega), if_pos (by omega), if_pos (by omega), hstate, hrel]
  simp [whenR]

/-- A stop of a channel is accepted (R283). -/
theorem accepts_channelStop (h : d.Takes 0x28) (hk : k < 16) :
    d.refusal now .pcie 0x28 (0x100 + 0x20 * k) 0 true = none := by
  refine h.accepts (commonOff_of_le (by omega)) (findReg_chCtrl k hk) (checkAccess_one_field rfl rfl (.inl rfl)) ?_
  unfold checkMeas
  dsimp only [chCtrlReg]
  rw [if_pos rfl, if_neg (by omega), if_pos (by omega), if_pos (by omega)]
  simp [whenR, bit]

theorem accepts_waveRun (h : d.Takes 0x2B) (hon : d.domOn 5 = true) (hclk : d.clkOk = true) :
    d.refusal now .pcie 0x2B 0x20 1 true = none := by
  have hmode : d.clkMode ≠ 0 := fun h0 => by simp [clkOk, h0] at hclk
  refine h.accepts rfl (x := waveCtrlReg) rfl (checkAccess_one_field rfl rfl (.inl rfl)) ?_
  simp [checkMeas, waveCtrlReg, hon, hclk, hmode, whenR]

theorem accepts_arrPop (h : d.Takes 0x2B) : d.refusal now .pcie 0x2B 0x3C 1 true = none :=
  h.accepts rfl (x := arrPopReg) rfl (checkAccess_one_field rfl rfl (.inr rfl)) rfl

theorem accepts_pop (h : d.Takes 0x2A) : d.refusal now .pcie 0x2A 0x38 1 true = none :=
  h.accepts rfl (x := popReg) rfl (checkAccess_one_field rfl rfl (.inr rfl)) rfl

theorem accepts_captureEn (h : d.Takes 0x2C)
    (hslots : ∀ i, (i = 0 ∨ i = 1 ∨ i = 3) → d.partEn i = true → 2 ≤ d.slotsFor i) :
    d.refusal now .pcie 0x2C 0x20 1 true = none := by
  have hpart : [0, 1, 3].any (fun i => d.partEn i && decide (d.slotsFor i < 2)) = false := by
    simp only [List.any_eq_false, Bool.and_eq_true, decide_eq_true_eq, not_and, Nat.not_lt]
    exact fun i hi hen => hslots i (by simpa using hi) hen
  refine h.accepts rfl (x := captureCtrlReg) rfl (checkAccess_one_field rfl rfl (.inl rfl)) ?_
  change whenR (bit 1 0 && !d.flag 0x2C 0x20 0 && [0, 1, 3].any (fun i => d.partEn i && decide (d.slotsFor i < 2))) rRelation = []
  rw [hpart, Bool.and_false]
  rfl

theorem accepts_hostTrigger (h : d.Takes 0x2C) : d.refusal now .pcie 0x2C 0x28 1 true = none :=
  h.accepts rfl (x := trigReg) rfl (checkAccess_one_field rfl rfl (.inr rfl)) rfl

/-- REL is accepted for a record that is locked (R312). -/
theorem accepts_rel {i : Nat} {r : Rec} (w : Word) (h : d.Takes 0x2C) (hi : i = 0 ∨ i = 1 ∨ i = 3)
    (hr : r ∈ (d.ringOf i).recs) (hid : r.id = w.toNat) (hlock : recLocked r = true) :
    d.refusal now .pcie 0x2C 0xBC w.toNat true = none := by
  have hres : putBits w.toNat 31 0 0 = 0 := by
    have := w.isLt
    simp [putBits]
    omega
  have hsome : ([0, 1, 3] : List Nat).any (fun i => (d.ringOf i).recs.any (fun r => r.id == w.toNat && recLocked r)) = true :=
    List.any_eq_true.mpr ⟨i, by simpa using hi, List.any_eq_true.mpr ⟨r, hr, by simp [hid, hlock]⟩⟩
  refine h.accepts rfl (x := relReg) rfl (checkAccess_one_field rfl hres (.inr rfl)) ?_
  change whenR (!([0, 1, 3] : List Nat).any (fun i => (d.ringOf i).recs.any (fun r => r.id == w.toNat && recLocked r))) rState = []
  rw [hsome]
  rfl

theorem bits_setBit_zero {w hi lo : Nat} (b : Bool) (h : lo ≠ 0) : bits (setBit w 0 b) hi lo = bits w hi lo :=
  bits_congr fun _ hlo _ => bit_setBit_zero_ne (by omega)

theorem bit_of_bits_eq_zero {w hi lo m : Nat} (h : bits w hi lo = 0) (hlo : lo ≤ m) (hhi : m ≤ hi) : bit w m = false := by
  have hbit : bit (bits w hi lo) (m - lo) = false := by simp [h, bit]
  have hin : m - lo < hi + 1 - lo := by omega
  simpa [bit_bits, hin, Nat.add_sub_cancel' hlo] using hbit

/-- No bit of RX_CFG is set outside its fields. -/
theorem reserved_rxCfg (b : Bool) (hhigh : bits (d.rd 0x30 (0x100 + 0x40 * n)) 31 12 = 0)
    (hmid : bits (d.rd 0x30 (0x100 + 0x40 * n)) 7 3 = 0) :
    (rxCfgReg n).row.reserved (setBit (d.rd 0x30 (0x100 + 0x40 * n)) 0 b) = false := by
  have hzero : putBits (putBits (putBits (putBits (setBit (d.rd 0x30 (0x100 + 0x40 * n)) 0 b) 11 8 0) 2 2 0) 1 1 0) 0 0 0 = 0 := by
    refine Nat.eq_of_testBit_eq fun m => ?_
    rw [← bit_eq_testBit, bit_putBits (by decide), bit_putBits (by decide), bit_putBits (by decide), bit_putBits (by decide),
      Nat.zero_testBit]
    split_ifs with h0 h1 h2 h8
    · simp [bit]
    · simp [bit]
    · simp [bit]
    · simp [bit]
    · rw [bit_setBit_zero_ne (by omega)]
      rcases Nat.lt_or_ge m 8 with hlow | hge
      · exact bit_of_bits_eq_zero hmid (by omega) (by omega)
      · rcases Nat.lt_or_ge m 32 with hin | hbeyond
        · exact bit_of_bits_eq_zero hhigh (by omega) (by omega)
        · rw [bit_eq_testBit]
          exact Nat.testBit_lt_two_pow ((d.rd_lt _ _).trans_le (Nat.pow_le_pow_right (by decide) hbeyond))
  exact bne_eq_false_iff_eq.mpr hzero

/-- A write of RX_CFG that changes EN alone is accepted, unless IRIG-B holds the pin of port 7 (R324, R341, Table 16.9). -/
theorem accepts_rxCfg (b : Bool) (h : d.Takes 0x30) (hn : n < 8) (hhigh : bits (d.rd 0x30 (0x100 + 0x40 * n)) 31 12 = 0)
    (hmid : bits (d.rd 0x30 (0x100 + 0x40 * n)) 7 3 = 0) (hrate : d.fld 0x30 (0x100 + 0x40 * n) 11 8 ≤ 9)
    (hpin : (n == 7 && b && !d.rxEn 7 && d.irigHeld) = false) :
    d.refusal now .pcie 0x30 (0x100 + 0x40 * n) (setBit (d.rd 0x30 (0x100 + 0x40 * n)) 0 b) true = none := by
  have haccess : d.checkAccess .pcie (rxCfgReg n) (0x100 + 0x40 * n) (setBit (d.rd 0x30 (0x100 + 0x40 * n)) 0 b) = [] := by
    have hold : (rxCfgReg n).row.flds = [fIn 11 8 .rws 0 9, fAny 2 2 .rws, fAny 1 1 .rws, fAny 0 0 .rw] := rfl
    have hpage : (rxCfgReg n).page = 0x30 := rfl
    have hle : bits (d.rd 0x30 (0x100 + 0x40 * n)) 11 8 ≤ 9 := hrate
    simp [checkAccess, Row.writable, reserved_rxCfg b hhigh hmid, hold, fAny, fIn, Acc.x, Acc.s, Fld.takes, whenR,
      bits_setBit_zero b, hle, hpage]

  refine h.accepts (commonOff_of_le (by omega)) (findReg_rxCfg n hn) haccess ?_
  unfold checkMeas
  dsimp only [rxCfgReg]
  have h20 : ¬((decide (0x100 + 0x40 * n = 0x20) || decide (0x100 + 0x40 * n = 0x24) || decide (0x100 + 0x40 * n = 0x28)) = true) := by simp; omega
  rw [if_neg (by decide), if_neg (by simp), if_neg (by simp), if_neg (by decide), if_neg (by decide), if_pos rfl, if_neg h20,
    if_neg (by omega), if_pos (by omega), if_pos (by omega), bit_setBit_same, hpin]
  rfl

/-- RESYNC is accepted where the transmitter fell back and its source is there (R341). -/
theorem accepts_resync (h : d.Takes 0x30) (hn : n < 8) (hfall : (d.port! n).txFall = true) (hsrc : d.txSrcOk n = true) :
    d.refusal now .pcie 0x30 (0x134 + 0x40 * n) 1 true = none := by
  refine h.accepts (commonOff_of_le (by omega)) (findReg_txSync n hn) (checkAccess_one_field rfl rfl (.inr rfl)) ?_
  unfold checkMeas
  dsimp only [txSyncReg]
  have h20 : ¬((decide (0x134 + 0x40 * n = 0x20) || decide (0x134 + 0x40 * n = 0x24) || decide (0x134 + 0x40 * n = 0x28)) = true) := by simp; omega
  rw [if_neg (by decide), if_neg (by simp), if_neg (by simp), if_neg (by decide), if_neg (by decide), if_pos rfl, if_neg h20,
    if_neg (by omega), if_pos (by omega), if_neg (by omega), if_neg (by omega), if_pos (by omega), hfall, hsrc]
  rfl

end
end Dev

/-- Settles O28. -/
theorem windowReadsAndAcceptedWritesComplete : Obligations.WindowReadsAndAcceptedWritesComplete := by
  unfold Obligations.WindowReadsAndAcceptedWritesComplete
  obtain ⟨hmeas, hstream⟩ := measurementAndStreamWritesAct
  refine ⟨fun rq k s => ?_, fun page w s hst hon hready => ?_, fun k n w s hst => ?_⟩
  · obtain ⟨hwin, hout⟩ := windowAndOutputReadsMoveOn
    refine ⟨fun hk hon => ?_, fun hon hc => ?_, fun hon hkey => ?_, fun hon => ?_⟩
    · exact ⟨_, hout rq k s hk hon, rfl, rfl, rfl, by cases rq <;> rfl, by cases rq <;> rfl⟩
    · obtain ⟨hnext, _⟩ := ((hwin rq s).1 hon).1 hc
      exact ⟨_, hnext, rfl, rfl, rfl, by cases rq <;> rfl, by cases rq <;> rfl⟩
    · obtain ⟨hnext, _⟩ := ((hwin rq s).2.1 hon).1 hkey
      exact ⟨_, hnext, rfl, rfl, rfl, by cases rq <;> rfl, by cases rq <;> rfl⟩
    · refine ⟨_, readRow_rdData hon, rfl, rfl, rfl, ?_, by cases rq <;> rfl⟩
      exact Dev.prism_readNext_rdData _
  · have htakes : s.dev.Takes page := ⟨hst, hon, hready⟩
    obtain ⟨hkey, hevents⟩ := pageWritesComplete w htakes
    refine ⟨hkey, fun hw => ⟨?_, ?_⟩, fun hpage hlock => ?_⟩
    · obtain ⟨⟨b, hmask⟩, _⟩ := hevents hw
      exact ⟨_, hmask, rfl, rfl, rfl, rfl, Dev.pg_updPage_bus _ _ _ b⟩
    · obtain ⟨_, b, hpend⟩ := hevents hw
      refine ⟨_, hpend, rfl, rfl, rfl, rfl, fun n hn => ?_⟩
      rw [Dev.pg_updPage_bus]
      exact bit_cleared (s.dev.pg page).raw w.toNat hn
    · subst hpage
      exact violClr_completes w htakes hlock
  · obtain ⟨hstart, hend, hwave, hcapture, htrig, hrel, hpop, harr⟩ := hmeas .pcie w s
    refine ⟨fun hon hready hk => ⟨fun hrun hclk hbank hsd15 hcap => ⟨?_, fun hstop => ?_⟩, fun hrun => ⟨?_, ?_⟩⟩,
      fun hon hready => ⟨fun hrun hdom hclk => ?_, ?_⟩, fun hon hready => ?_,
      fun hon hready => ⟨fun hrun hslots => ?_, ?_, fun i r hi hr hid hlock => ?_⟩,
      fun hon hready hn => ⟨fun hhigh hmid hrate => ⟨fun hen hpin => ?_, fun hen => ?_⟩, fun hfall hsrc => ?_⟩⟩
    · exact hstart k hk (Dev.accepts_channelStart ⟨hst, hon, hready⟩ hk hclk hbank hsd15 hcap) hrun
    · exact Dev.chan_chanStart_st _ _ _ hstop
    · exact hend k hk (Dev.accepts_channelStop ⟨hst, hon, hready⟩ hk) hrun
    · exact Dev.chan_chanStop_st _ _ _
    · exact hwave (Dev.accepts_waveRun ⟨hst, hon, hready⟩ hdom hclk) hrun
    · exact harr (Dev.accepts_arrPop ⟨hst, hon, hready⟩)
    · exact hpop (Dev.accepts_pop ⟨hst, hon, hready⟩)
    · exact hcapture (Dev.accepts_captureEn ⟨hst, hon, hready⟩ hslots) hrun
    · exact htrig (Dev.accepts_hostTrigger ⟨hst, hon, hready⟩)
    · exact hrel (Dev.accepts_rel w ⟨hst, hon, hready⟩ hi hr hid hlock)
    · refine (hstream .pcie n s hn).1 (Dev.accepts_rxCfg true ⟨hst, hon, hready⟩ hn hhigh hmid hrate ?_) hen
      by_cases h7 : n = 7
      · simp [hpin h7]
      · simp [h7]
    · exact (hstream .pcie n s hn).2.1 (Dev.accepts_rxCfg false ⟨hst, hon, hready⟩ hn hhigh hmid hrate (by simp)) hen
    · exact (hstream .pcie n s hn).2.2 (Dev.accepts_resync ⟨hst, hon, hready⟩ hn hfall hsrc)

end Sys2Proof.Machine
end

section
/-! The Facet links: what a subframe, a sample, a message and an echo change of their link, and what they leave
(chapter 03). -/

namespace Sys2Proof.Machine

theorem tset_tset {α : Type} [DecidableEq α] (z : α) (m : Tbl α) (k : Nat) (v w : α) :
    tset z (tset z m k v) k w = tset z m k w := by
  have hmid : ∀ p : Nat × α → Bool, p (k, v) = false →
      (if v = z then [] else [(k, v)]).filter p = ([] : List (Nat × α)) := by
    intro p hp
    split
    · rfl
    · simp [hp]
  have hlow : (tset z m k v).filter (fun p => decide (p.1 < k)) = m.filter (fun p => decide (p.1 < k)) := by
    have hup : (m.filter (fun p => decide (k < p.1))).filter (fun p => decide (p.1 < k)) = [] := by
      simp only [List.filter_filter, List.filter_eq_nil_iff, Bool.and_eq_true, decide_eq_true_eq]
      omega
    rw [tset, List.filter_append, List.filter_append, hmid (fun p => decide (p.1 < k)) (decide_eq_false (Nat.lt_irrefl k)), hup,
      List.append_nil, List.append_nil, List.filter_filter]
    simp
  have hhigh : (tset z m k v).filter (fun p => decide (k < p.1)) = m.filter (fun p => decide (k < p.1)) := by
    have hdown : (m.filter (fun p => decide (p.1 < k))).filter (fun p => decide (k < p.1)) = [] := by
      simp only [List.filter_filter, List.filter_eq_nil_iff, Bool.and_eq_true, decide_eq_true_eq]
      omega
    rw [tset, List.filter_append, List.filter_append, hmid (fun p => decide (k < p.1)) (decide_eq_false (Nat.lt_irrefl k)), hdown,
      List.nil_append, List.nil_append, List.filter_filter]
    simp
  rw [tset, hlow, hhigh]
  rfl

theorem next_withDev {s : State} {d d' : Dev} (h : d = d') :
    (Host.Outcome.next (s.withDev d) : Host.Outcome State Fault Refusal) = .next (s.withDev d') := by rw [h]

namespace Dev

@[simp] theorem lk_updLink_same (d : Dev) (k : Nat) (f : Link → Link) : (d.updLink k f).lk k = f (d.lk k) := by
  simp [lk, tupd]

theorem lk_updLink_ne {d : Dev} {k j : Nat} {f : Link → Link} (h : j ≠ k) : (d.updLink k f).lk j = d.lk j := by
  simp [lk, tupd, tget_tset_ne _ _ _ _ _ _ h]

theorem updLink_congr {d : Dev} {k : Nat} {f g : Link → Link} (h : f (d.lk k) = g (d.lk k)) : d.updLink k f = d.updLink k g := by
  unfold lk at h
  simp [updLink, tupd, h]

/-- Two changes of one link are one. -/
theorem updLink_updLink (d : Dev) (k : Nat) (f g : Link → Link) :
    (d.updLink k f).updLink k g = d.updLink k (fun _ => g (f (d.lk k))) := by
  simp [updLink, tupd, tset_tset, lk]

/-- What a step of one link leaves: the registers, Hull and every other link. -/
structure OwnLink (k : Nat) (d d' : Dev) : Prop where
  regs : d'.regs = d.regs
  hull : d'.hull = d.hull
  link : ∀ x, x ≠ k → d'.lk x = d.lk x

section
variable {k : Nat} {d d' d'' : Dev}

theorem OwnLink.refl (k : Nat) (d : Dev) : OwnLink k d d := ⟨rfl, rfl, fun _ _ => rfl⟩

theorem OwnLink.trans (h : OwnLink k d d') (h' : OwnLink k d' d'') : OwnLink k d d'' :=
  ⟨h'.regs.trans h.regs, h'.hull.trans h.hull, fun x hx => (h'.link x hx).trans (h.link x hx)⟩

theorem OwnLink.updLink (h : OwnLink k d d') (f : Link → Link) : OwnLink k d (d'.updLink k f) :=
  ⟨h.regs, h.hull, fun x hx => (lk_updLink_ne hx).trans (h.link x hx)⟩

/-- A step of a link that leaves besides what the link sends by: its state, its safe state and its unit's mode. -/
structure SendLink (k : Nat) (d d' : Dev) : Prop extends OwnLink k d d' where
  st : (d'.lk k).st = (d.lk k).st
  safeQ : (d'.lk k).safeQ = (d.lk k).safeQ
  mode : (d'.ch k).mode = (d.ch k).mode

theorem SendLink.refl (k : Nat) (d : Dev) : SendLink k d d := ⟨OwnLink.refl k d, rfl, rfl, rfl⟩

theorem SendLink.trans (h : SendLink k d d') (h' : SendLink k d' d'') : SendLink k d d'' :=
  ⟨h.toOwnLink.trans h'.toOwnLink, h'.st.trans h.st, h'.safeQ.trans h.safeQ, h'.mode.trans h.mode⟩

/-- A change of the link's queues and counters. -/
theorem SendLink.updLink (f : Link → Link) (hst : (f (d.lk k)).st = (d.lk k).st) (hq : (f (d.lk k)).safeQ = (d.lk k).safeQ) :
    SendLink k d (d.updLink k f) :=
  ⟨(OwnLink.refl k d).updLink f, by rw [lk_updLink_same, hst], by rw [lk_updLink_same, hq], rfl⟩

@[simp] theorem ch_updChord_same (d : Dev) (k : Nat) (f : Chord → Chord) : (d.updChord k f).ch k = f (d.ch k) := by
  simp [ch, tupd]

theorem ch_updChord_ne {d : Dev} {k j : Nat} {f : Chord → Chord} (h : j ≠ k) : (d.updChord k f).ch j = d.ch j := by
  simp [ch, tupd, tget_tset_ne _ _ _ _ _ _ h]

/-- A change of the unit's modulator that leaves its mode. -/
theorem SendLink.updChord (f : Chord → Chord) (h : (f (d.ch k)).mode = (d.ch k).mode) : SendLink k d (d.updChord k f) :=
  ⟨⟨rfl, rfl, fun _ _ => rfl⟩, rfl, rfl, by rw [ch_updChord_same, h]⟩

theorem SendLink.raise (d : Dev) (k p n : Nat) : SendLink k d (d.raise p n) := by
  obtain ⟨q, b, h⟩ := raise_eq d p n
  rw [h]
  exact ⟨⟨rfl, rfl, fun _ _ => rfl⟩, rfl, rfl, rfl⟩

/-- An event that the log records changes the pages, the messages and the capture alone. -/
theorem raiseLog_frame (d : Dev) (ts p n unit detail sub : Nat) (arg : Int) :
    ∃ q b c, d.raiseLog ts p n unit detail sub arg = { d with pages := q, bus := b, cap := c } := by
  obtain ⟨q, b, h⟩ := raise_eq d p n
  obtain ⟨q', pba, sent, log, buf, seq, lost, off, h', _⟩ :=
    logEv_frame ({ d with pages := q, bus := b } : Dev) ts p n unit detail sub arg
  unfold raiseLog
  rw [h, h']
  exact ⟨_, _, _, rfl⟩

theorem SendLink.raiseLog (d : Dev) (k ts p n unit detail sub : Nat) (arg : Int) :
    SendLink k d (d.raiseLog ts p n unit detail sub arg) := by
  obtain ⟨q, b, c, h⟩ := raiseLog_frame d ts p n unit detail sub arg
  rw [h]
  exact ⟨⟨rfl, rfl, fun _ _ => rfl⟩, rfl, rfl, rfl⟩

theorem SendLink.modCap (d : Dev) (k : Nat) (f : Capture → Capture) : SendLink k d (d.modCap f) :=
  ⟨⟨rfl, rfl, fun _ _ => rfl⟩, rfl, rfl, rfl⟩

theorem SendLink.pushTrace (d : Dev) (k hov num : Nat) : SendLink k d (d.pushTrace hov num) := by
  unfold Dev.pushTrace pushFrame
  split
  · exact .refl k d
  · exact .modCap d k _

theorem SendLink.updLeg (d : Dev) (k : Nat) (legB : Bool) (f : LegSt → LegSt) : SendLink k d (d.updLeg k legB f) :=
  .updChord _ (by cases legB <;> rfl)

theorem SendLink.addCarry (d : Dev) (k : Nat) (legB : Bool) (amt : Int) : SendLink k d (d.addCarry k legB amt) := by
  unfold Dev.addCarry
  dsimp only
  cases legB
  · simp only [Bool.false_eq_true, if_false]
    split
    · exact .updChord _ rfl
    · exact (SendLink.updChord _ rfl).trans ((SendLink.updChord _ rfl).trans (.raise _ k _ _))
  · simp only [if_true]
    split
    · exact .updChord _ rfl
    · exact (SendLink.updChord _ rfl).trans ((SendLink.updChord _ rfl).trans (.raise _ k _ _))

theorem SendLink.pulseLost (d : Dev) (k : Nat) (legB dir : Bool) (t1 t2 : Nat) :
    SendLink k d (d.pulseLost k legB dir t1 t2) :=
  (SendLink.addCarry d k legB _).trans (.updChord _ rfl)

/-- Withholding transitions that come too late leaves what the link sends by (R73). -/
theorem SendLink.withholdN (n : Nat) (d : Dev) (k p : Nat) : SendLink k d (withholdN n d k p) := by
  induction n generalizing d with
  | zero => exact .refl k d
  | succ n ih =>
    unfold Dev.withholdN
    split
    · exact .refl k d
    · dsimp only
      refine .trans ?_ (ih _)
      have hrec := fun (f : Link → Link) (hst : (f (d.lk k)).st = (d.lk k).st) (hq : (f (d.lk k)).safeQ = (d.lk k).safeQ)
          (num : Nat) => (SendLink.updLink f hst hq).trans ((SendLink.raiseLog _ k p (facetPage k) 5 k 0 0 0).trans (.pushTrace _ k p num))
      split
      · exact (hrec _ rfl rfl _).trans (.pulseLost _ k _ _ _ _)
      · exact (hrec _ rfl rfl _).trans (.updLeg _ k _ _)

theorem SendLink.traceSingle (d : Dev) (k : Nat) (t : Tx) : SendLink k d (d.traceSingle k t) := by
  unfold Dev.traceSingle updRing
  exact .modCap d k _

theorem SendLink.foldl {α : Type} (f : Dev → α → Dev) (l : List α) (h : ∀ d a, SendLink k d (f d a)) (d : Dev) :
    SendLink k d (l.foldl f d) := by
  induction l generalizing d with
  | nil => exact .refl k d
  | cons a r ih => exact (h d a).trans (ih _)

theorem SendLink.dropRepeats (d : Dev) (k p : Nat) : SendLink k d (d.dropRepeats k p) :=
  (SendLink.foldl (fun d t => d.traceSingle k t) _ (fun d t => .traceSingle d k t) d).trans (.updLink _ rfl rfl)

theorem SendLink.effective (h : SendLink k d d') : d'.effective k = d.effective k := by
  unfold Dev.effective holdOf
  rw [h.hull]

theorem SendLink.vBit (h : SendLink k d d') : d'.vBit k = d.vBit k := by
  simp only [Dev.vBit, h.effective, h.st, h.safeQ, h.mode]

theorem SendLink.linked (h : SendLink k d d') : d'.linked k = d.linked k := by
  simp only [Dev.linked, h.st]

theorem OwnLink.patSent (d : Dev) (k p w : Nat) : OwnLink k d (d.patSent k p w) := by
  unfold Dev.patSent
  split
  · exact ⟨rfl, rfl, fun _ _ => rfl⟩
  · split
    · exact ⟨rfl, rfl, fun _ _ => rfl⟩
    · exact .refl k d

/-- The word that leaves comes from the link's own queues, or is the idle word (R74). -/
theorem OwnLink.pickWord (d : Dev) (k p : Nat) : OwnLink k d (d.pickWord k p).2 := by
  have hself := fun (f : Link → Link) => (OwnLink.refl k d).updLink f
  unfold Dev.pickWord
  dsimp only
  split
  · exact hself _
  · split
    · exact hself _
    · split
      · exact hself _
      · split
        · exact hself _
        · split
          · exact (hself _).trans (.patSent _ k p _)
          · split
            · exact hself _
            · split
              · dsimp only
                split
                · exact (hself _).updLink _
                · exact hself _
              · exact .refl k d

/-- A link that carries no control words sends the idle word (R74). -/
theorem pickWord_unlinked (h : d.linked k = false) (p : Nat) : (d.pickWord k p).1 = 0xC00000 := by
  simp [Dev.pickWord, h, idleWord]

/-- A safe state that is to be sent goes first in STANDBY and ACTIVE (R74). -/
theorem pickWord_safe {code m : Nat} (hst : (d.lk k).st = .standby ∨ (d.lk k).st = .active)
    (hq : (d.lk k).safeQ = some (code, m)) (p : Nat) : (d.pickWord k p).1 = ctlWord 0x01 code := by
  rcases hst with hst | hst <;> simp [Dev.pickWord, Dev.linked, hst, hq]

end

/-- What precedes the word of a downstream subframe: late transitions and repeats go, and a message begins (R71, R72, R78). -/
def sendPrep (d : Dev) (k p : Nat) : Dev :=
  if (d.lk k).st == .active then (Dev.withholdN ((d.lk k).txQ.length) d k p).dropRepeats k p else d
def sendMsg (d : Dev) (k j : Nat) : Dev :=
  if j % 48 = 0 then d.updLink k (fun l => { l with msgCur := l.msgQ.headD 0, msgQ := l.msgQ.tail }) else d
/-- CMD_STATE enters the block status in frame 108 (Table 3.7). -/
def sendTurn (d : Dev) (k j : Nat) : Dev := if j = 216 then d.cmdStateTurn k else d

/-- The subframe that leaves, with V of the device d, the word w and U and C of the device d' (R58 to R61). -/
def dsFrame (d d' : Dev) (k n j w : Nat) : DsFrame :=
  { at_ := blockAt n + subNs * j, pre := if j = 0 then 0 else if j % 2 = 0 then 1 else 2, word := w, v := d.vBit k
    u := bit (d'.lk k).msgCur (47 - j % 48), c := bit (d'.lk k).dsStatus (j / 2)
    p := (ones 24 w + b2n (d.vBit k) + b2n (bit (d'.lk k).msgCur (47 - j % 48)) + b2n (bit (d'.lk k).dsStatus (j / 2))) % 2 == 1 }

/-- The device as the word leaves, and after it. -/
def sendAt (d : Dev) (k n j : Nat) : Dev := (d.sendPrep k (blockAt n + subNs * j)).sendMsg k j
def sent (d : Dev) (k n j : Nat) : Dev := ((d.sendAt k n j).pickWord k (blockAt n + subNs * j)).2.sendTurn k j

theorem doDownSub_silent {d : Dev} {k n j : Nat} (h : d.boot.armed = false ∨ d.boot.por = true) : d.doDownSub k n j = d := by
  rcases h with h | h <;> simp [doDownSub, h]

theorem doDownSub_sends {d : Dev} {k n j : Nat} (hk : k < 52) (hn : 2 ≤ n) (hj : j < 384) (harm : d.boot.armed = true)
    (hpor : d.boot.por = false) :
    d.doDownSub k n j = (d.sent k n j).updLink k (fun l => { l with ds := some (dsFrame (d.sendPrep k (blockAt n + subNs * j))
      (d.sent k n j) k n j ((d.sendAt k n j).pickWord k (blockAt n + subNs * j)).1) }) := by
  unfold doDownSub
  have hgo : ¬((decide (52 ≤ k) || decide (n < 2) || decide (384 ≤ j) || !d.boot.armed || d.boot.por) = true) := by
    simp [harm, hpor]
    omega
  rw [if_neg hgo]
  rfl

theorem SendLink.sendPrep (d : Dev) (k p : Nat) : SendLink k d (d.sendPrep k p) := by
  unfold Dev.sendPrep
  split
  · exact (SendLink.withholdN _ d k p).trans (.dropRepeats _ k p)
  · exact .refl k d

theorem SendLink.sendAt (d : Dev) (k n j : Nat) : SendLink k d (d.sendAt k n j) := by
  refine (SendLink.sendPrep d k (blockAt n + subNs * j)).trans ?_
  unfold Dev.sendAt
  unfold sendMsg
  split
  · exact .updLink _ rfl rfl
  · exact .refl k _

theorem OwnLink.sent (d : Dev) (k n j : Nat) : OwnLink k d (d.sent k n j) := by
  refine (SendLink.sendAt d k n j).toOwnLink.trans ((OwnLink.pickWord _ k (blockAt n + subNs * j)).trans ?_)
  unfold Dev.sent
  unfold sendTurn
  split
  · exact (OwnLink.refl k _).updLink _
  · exact .refl k _

/-- The parity bit makes the parity of a subframe even (R60). -/
theorem dsFrame_parity (d d' : Dev) (k n j w : Nat) :
    (let f := dsFrame d d' k n j w
     (ones 24 f.word + b2n f.v + b2n f.u + b2n f.c + b2n f.p) % 2 = 0) := by
  simp only [dsFrame]
  generalize ones 24 w + b2n (d.vBit k) + b2n _ + b2n _ = total
  rcases Nat.mod_two_eq_zero_or_one total with h | h
  · simp [h, b2n]
  · simp [h, b2n]
    omega

end Dev

/-- Settles O29. -/
theorem downstreamSubframeIsScheduled : Obligations.DownstreamSubframeIsScheduled := by
  unfold Obligations.DownstreamSubframeIsScheduled
  intro k n j s hk hn hj
  refine ⟨fun h => next_withDev (Dev.doDownSub_silent h), fun harm hpor => ?_⟩
  have hprep := Dev.SendLink.sendPrep s.dev k (blockAt n + subNs * j)
  have hat := Dev.SendLink.sendAt s.dev k n j
  have hown := Dev.OwnLink.sent s.dev k n j
  refine ⟨_, Dev.dsFrame _ _ k n j _, next_withDev (Dev.doDownSub_sends hk hn hj harm hpor),
    rfl, rfl, by rw [Dev.lk_updLink_same], rfl, rfl, hprep.vBit, fun hst => ?_, fun hhold => ?_, fun hst hhold hq hmode => ?_,
    Dev.dsFrame_parity .., fun hlinked => ?_, fun code m hst hq => ?_, fun x hx => ?_, ?_, ?_⟩
  · refine hprep.vBit.trans ?_
    simp [Dev.vBit, hst]
  · refine hprep.vBit.trans ?_
    simp [Dev.vBit, hhold]
  · refine hprep.vBit.trans ?_
    simp [Dev.vBit, hst, hhold, hq, hmode]
  · exact Dev.pickWord_unlinked (hat.linked.trans hlinked) _
  · exact Dev.pickWord_safe (by rw [hat.st]; exact hst) (hat.safeQ.trans hq) _
  · exact (hown.updLink _).link x hx
  · exact hown.regs
  · exact hown.hull

end Sys2Proof.Machine
end

section
/-! Upstream subframes, samples, management messages and echoes of a Facet link (chapter 03). -/

namespace Sys2Proof.Machine

/-- What the preamble of an upstream subframe leaves of its link: a preamble B starts a block (R75, R77, R86). -/
def takePreamble (edge pre : Nat) (l : Link) : Link :=
  let l := { l with lastPre := some edge, seen := true, lossUp := false }
  if pre = 0 then
    let set := match l.hId, l.hLo, l.hHi with
      | some (t, r), some lo, some hi => some (t, r, lo, hi)
      | _, _, _ => none
    let run := match set with
      | none => 0
      | some x => if l.hPrev = some x then min 2 (l.hRun + 1) else 1
    { l with
      ntBad := if l.lastB.any (fun b => decide (edge < b + 16 * 368640)) then l.ntBad else 0
      bRun := if l.lastB.any (Dev.blockApart edge) then min 2 (l.bRun + 1) else 1
      lastB := some edge, rxPos := 0, csBits := 0, csTaken := 0, csFirst := none, csB := true, parBlk := 0
      hPrev := set, hRun := run, hId := none, hLo := none, hHi := none }
  else { l with rxPos := l.rxPos + 1 }

/-- The bits of an even subframe: word, V, U, and C once both halves of a frame agree (R62, R75, R78). -/
def takeSubframe (word : Nat) (v u c : Bool) (l : Link) : Link :=
  let f := l.rxPos / 2
  let l := { l with nodeV := v, rxWord := some word, uBits := (l.uBits * 2 + b2n u) % 2 ^ 48 }
  if l.rxPos % 2 = 0 then { l with csFirst := some c }
  else if l.csFirst = some c then
    { l with csBits := setBit l.csBits f c, csTaken := setBit l.csTaken f true, csFirst := none }
  else { l with csFirst := none }

/-- An odd subframe is counted, and its bits are not taken (R80). -/
def countParity (l : Link) : Link :=
  { l with parErr := sat1 32 l.parErr, parBlk := l.parBlk + 1, csFirst := none, rxWord := none, uBits := 0 }

section
variable (edge pre word : Nat) (v u c : Bool) (l : Link)

theorem takePreamble_marks : (takePreamble edge pre l).lastPre = some edge ∧ (takePreamble edge pre l).seen = true := by
  unfold takePreamble
  dsimp only
  split <;> exact ⟨rfl, rfl⟩

/-- A preamble leaves the link's state, its counts of errors and what the node sent last. -/
theorem takePreamble_keeps :
    (takePreamble edge pre l).st = l.st ∧ (takePreamble edge pre l).nodeV = l.nodeV ∧
      (takePreamble edge pre l).uBits = l.uBits ∧ (takePreamble edge pre l).parErr = l.parErr := by
  unfold takePreamble
  dsimp only
  split <;> exact ⟨rfl, rfl, rfl, rfl⟩

theorem takeSubframe_takes :
    (takeSubframe word v u c l).nodeV = v ∧ (takeSubframe word v u c l).rxWord = some word ∧
      (takeSubframe word v u c l).uBits = (l.uBits * 2 + b2n u) % 2 ^ 48 := by
  unfold takeSubframe
  dsimp only
  split
  · exact ⟨rfl, rfl, rfl⟩
  · split <;> exact ⟨rfl, rfl, rfl⟩

theorem takeSubframe_keeps :
    (takeSubframe word v u c l).st = l.st ∧ (takeSubframe word v u c l).lastPre = l.lastPre ∧
      (takeSubframe word v u c l).seen = l.seen := by
  unfold takeSubframe
  dsimp only
  split
  · exact ⟨rfl, rfl, rfl⟩
  · split <;> exact ⟨rfl, rfl, rfl⟩

end

namespace Dev

theorem linked_congr {d d' : Dev} {k : Nat} (h : (d'.lk k).st = (d.lk k).st) : d'.linked k = d.linked k := by
  simp only [linked, h]

section
variable {d : Dev} {now k edge pre word : Nat} {v u c p : Bool}

theorem doUpSub_even (hk : k < 52) (h : (ones 24 (word % 2 ^ 24) + b2n v + b2n u + b2n c + b2n p) % 2 = 0) :
    d.doUpSub now k edge pre word v u c p =
      d.updLink k (fun _ => takeSubframe (word % 2 ^ 24) v u c (takePreamble edge pre (d.lk k))) := by
  rw [← updLink_updLink d k (takePreamble edge pre)]
  unfold doUpSub
  rw [if_neg (by omega)]
  exact if_pos (beq_iff_eq.mpr h)

/-- An odd subframe of a link that is not linked is counted and nothing else follows (R80). -/
theorem doUpSub_odd (hk : k < 52) (h : (ones 24 (word % 2 ^ 24) + b2n v + b2n u + b2n c + b2n p) % 2 = 1)
    (hlinked : d.linked k = false) :
    d.doUpSub now k edge pre word v u c p = d.updLink k (fun _ => countParity (takePreamble edge pre (d.lk k))) := by
  obtain ⟨hst, _⟩ := takePreamble_keeps edge pre (d.lk k)
  have hstill : ((d.updLink k (takePreamble edge pre)).updLink k countParity).linked k = false := by
    refine (linked_congr ?_).trans hlinked
    rw [lk_updLink_same, lk_updLink_same]
    exact hst
  rw [← updLink_updLink d k (takePreamble edge pre)]
  unfold doUpSub
  rw [if_neg (by omega)]
  have hodd : ((ones 24 (word % 2 ^ 24) + b2n v + b2n u + b2n c + b2n p) % 2 == 0) ≠ true := by
    rw [h]
    decide
  refine (if_neg hodd).trans (if_neg ?_)
  change ¬((((d.updLink k (takePreamble edge pre)).updLink k countParity).linked k && _) = true)
  simp [hstill]

end

/-- A sample reaches the models and nothing else (R237, R238, R243, R247, R248). -/
theorem modelSample_frame (d : Dev) (k qty : Nat) (v : Int) : ∃ m, d.modelSample k qty v = { d with model := m } := by
  unfold modelSample
  split
  · exact ⟨_, rfl⟩
  · split
    · exact ⟨_, rfl⟩
    · split
      · exact ⟨_, rfl⟩
      · split
        · split <;> exact ⟨_, rfl⟩
        · split <;> exact ⟨_, rfl⟩

/-- The path-transfer diagnostic takes a sample into its own run (R262). -/
theorem ptNode_frame (d : Dev) (k qty : Nat) (v : Int) (t : Nat) : ∃ g, d.ptNode k qty v t = { d with diag := g } := by
  unfold ptNode
  dsimp only
  split
  · exact ⟨_, rfl⟩
  · split
    · split
      · split <;> exact ⟨_, rfl⟩
      · split <;> exact ⟨_, rfl⟩
    · split
      · exact ⟨_, rfl⟩
      · split
        · exact ⟨_, rfl⟩
        · split <;> exact ⟨_, rfl⟩

end Dev

/-- A sample as its link holds it, with the one before. -/
def takeSample (qty : Nat) (v : Int) (m : Nat) (l : Link) : Link :=
  { l with
    samp := tset (1048576, 0) l.samp qty (v, m)
    sampPrev := match l.samp.find? (fun p => p.1 == qty) with
      | some (_, x) => tset (1048576, 0) l.sampPrev qty x
      | none => l.sampPrev }

theorem Dev.doSample_frame {d : Dev} {k qty m : Nat} (hk : k < 52) (hq : qty < 7) (v : Int) :
    ∃ mo g, d.doSample k qty (m % 2 == 1) v m = { d.updLink k (takeSample qty v m) with model := mo, diag := g } := by
  have hgo : d.doSample k qty (m % 2 == 1) v m =
      ((d.updLink k (takeSample qty v m)).modelSample k qty v).ptNode k qty v (((d.updLink k (takeSample qty v m)).tm m)) := by
    unfold doSample
    rw [if_neg (by simp; omega)]
    rfl
  obtain ⟨mo, hmo⟩ := Dev.modelSample_frame (d.updLink k (takeSample qty v m)) k qty v
  rw [hmo] at hgo
  obtain ⟨g, hg⟩ := Dev.ptNode_frame ({ d.updLink k (takeSample qty v m) with model := mo } : Dev) k qty v
    ((d.updLink k (takeSample qty v m)).tm m)
  exact ⟨mo, g, hgo.trans hg⟩

/-- Settles O30. -/
theorem upstreamSubframesAndSamplesAreTaken : Obligations.UpstreamSubframesAndSamplesAreTaken := by
  unfold Obligations.UpstreamSubframesAndSamplesAreTaken
  refine ⟨fun k edge pre word v u c p s hk => ⟨fun hpar => ?_, fun hpar hlinked => ?_⟩, fun k qty m v s hk hq => ?_⟩
  · obtain ⟨hpre, hseen⟩ := takePreamble_marks edge pre (s.dev.lk k)
    obtain ⟨hst, _, hu, _⟩ := takePreamble_keeps edge pre (s.dev.lk k)
    obtain ⟨hv, hword, hu'⟩ := takeSubframe_takes (word % 2 ^ 24) v u c (takePreamble edge pre (s.dev.lk k))
    obtain ⟨hst', hpre', hseen'⟩ := takeSubframe_keeps (word % 2 ^ 24) v u c (takePreamble edge pre (s.dev.lk k))
    exact ⟨_, _, next_withDev (Dev.doUpSub_even hk hpar), rfl, hpre'.trans hpre,
      hseen'.trans hseen, hv, hword, by rw [hu', hu], hst'.trans hst⟩
  · obtain ⟨hst, hv, _, hpe⟩ := takePreamble_keeps edge pre (s.dev.lk k)
    exact ⟨_, _, next_withDev (Dev.doUpSub_odd hk hpar hlinked), rfl,
      congrArg (sat1 32) hpe, rfl, hv, hst⟩
  · obtain ⟨mo, g, h⟩ := Dev.doSample_frame (d := s.dev) (m := m) hk hq v
    refine ⟨_, next_withDev h, rfl, rfl, rfl, ?_, fun q hne => ?_, fun x hx => ?_, rfl, rfl⟩
    · change tget _ ((s.dev.updLink k (takeSample qty v m)).lk k).samp qty = _
      rw [Dev.lk_updLink_same]
      exact tget_tset_same ..
    · change tget _ ((s.dev.updLink k (takeSample qty v m)).lk k).samp q = _
      rw [Dev.lk_updLink_same]
      exact tget_tset_ne _ _ _ _ _ _ hne
    · exact Dev.lk_updLink_ne hx

namespace Dev
section
variable {d : Dev} {k seq : Nat}

/-- ALIGNED sets on a linked link alone (R83). -/
theorem alignSet_unlinked (h : d.linked k = false) : d.alignSet k = d := by
  simp [alignSet, h]

theorem alignSet_not_aligned (h : (d.lk k).nodeAligned = false) : d.alignSet k = d := by
  simp [alignSet, h]

/-- The ACK of the ADMIT in force is noted on a link in HELLO (R86). -/
theorem doAck_admission (hk : k < 52) (hst : (d.lk k).st = .hello) (hseq : (d.lk k).admitSeq = some seq) :
    d.doAck k 4 seq = d.updLink k (fun l => { l with admitted := true }) := by
  have hnote : d.doAck k 4 seq = (d.updLink k (fun l => { l with admitted := true })).alignSet k := by
    unfold doAck
    rw [if_neg (by omega)]
    refine congrArg (fun d => d.alignSet k) (updLink_congr ?_)
    simp [hst, hseq]
  rw [hnote, alignSet_unlinked]
  refine (linked_congr (d := d) (by rw [lk_updLink_same])).trans ?_
  simp [linked, hst]

/-- The ACK of the DELAY_SET in force is noted (R83). -/
theorem doAck_delay (hk : k < 52) (hseq : (d.lk k).dsetSeq = some seq) (hnode : (d.lk k).nodeAligned = false) :
    d.doAck k 5 seq = d.updLink k (fun l => { l with dsetAck := true }) := by
  have hnote : d.doAck k 5 seq = (d.updLink k (fun l => { l with dsetAck := true })).alignSet k := by
    unfold doAck
    rw [if_neg (by omega)]
    refine congrArg (fun d => d.alignSet k) (updLink_congr ?_)
    simp [hseq]
  rw [hnote, alignSet_not_aligned]
  rw [lk_updLink_same]
  exact hnode

theorem doHello_taken {now : Nat} {f : Link → Link} {isId : Bool} (hk : k < 52) (h : (isId && d.linked k) = false) :
    d.doHello now k f isId = d.updLink k f := by
  unfold doHello
  rw [if_neg (by omega), h]
  rfl

theorem doHello_lost {now : Nat} {f : Link → Link} (hk : k < 52) (h : d.linked k = true) :
    d.doHello now k f true = d.enterLost now k := by
  unfold doHello
  rw [if_neg (by omega), h]
  rfl

theorem doLinkLoss_hello {now : Nat} (hk : k < 52) (h : (d.lk k).st = .hello) :
    d.doLinkLoss now k = d.updLink k (fun l => { l with lossUp := true }) := by
  unfold doLinkLoss
  rw [if_neg (by omega), if_pos (by simp [h])]

theorem doLinkLoss_linked {now : Nat} (hk : k < 52) (h : d.linked k = true) : d.doLinkLoss now k = d.enterLost now k := by
  have hst : (d.lk k).st ≠ .hello := fun hst => by simp [linked, hst] at h
  unfold doLinkLoss
  rw [if_neg (by omega), if_neg (by simpa using hst), maybeLost, if_pos h]

/-- The first echo of a link, or one within the window of DELAY, is kept: DELAY takes the mean (R81, R82). -/
theorem doEcho_kept {now tag turn edge p : Nat} (hk : k < 52) (hl : d.linked k = true) (hreq : (d.lk k).echoReq = some (tag, p))
    (hwin : (d.lk k).echoes = [] ∨
      (8 * ((edge : Int) - 16 * p - turn + d.asym k) - (d.lk k).delay ≤ 16 * (bits (d.rd (facetPage k) 0x28) 7 0 : Nat) ∧
        -(16 * (bits (d.rd (facetPage k) 0x28) 7 0 : Nat)) ≤ 8 * ((edge : Int) - 16 * p - turn + d.asym k) - (d.lk k).delay)) :
    d.doEcho now k tag turn edge =
      (let d1 := d.updLink k (fun x =>
        { x with echoReq := none, rtt := ux 20 ((edge : Int) - 16 * p), turn := turn, asymF := d.asym k })
       let d2 := if (d.lk k).asymF = d.asym k then d1 else d1.arrUpdate
       (d2.updLink k (fun x => { x with
         echoes := (((edge : Int) - 16 * p - turn + d.asym k) :: x.echoes).take 16, rejRun := []
         nEcho := min 16 (x.nEcho + 1) })).setDelay k (d.lk k).echoes.isEmpty) := by
  have hkeep : ¬((!(d.lk k).echoes.isEmpty && decide (16 * ((bits (d.rd (facetPage k) 0x28) 7 0 : Nat) : Int) <
      8 * ((edge : Int) - 16 * p - turn + d.asym k) - (d.lk k).delay ∨ 8 * ((edge : Int) - 16 * p - turn + d.asym k) -
        (d.lk k).delay < -(16 * (bits (d.rd (facetPage k) 0x28) 7 0 : Nat)))) = true) := by
    rcases hwin with hnil | hin
    · simp [hnil]
    · simp only [Bool.and_eq_true, decide_eq_true_eq, not_and]
      omega
  unfold doEcho
  rw [if_neg (by simp [hl]; omega)]
  dsimp only
  rw [hreq]
  dsimp only
  rw [if_neg (by simp), if_neg hkeep]
  rfl

end
end Dev

/-- Settles O31. -/
theorem linkManagementAndEchoesAct : Obligations.LinkManagementAndEchoesAct := by
  unfold Obligations.LinkManagementAndEchoesAct
  refine ⟨fun k ty rev v seq s hk => ⟨fun hl => ?_, fun hl => ?_, ?_, ?_, fun hst hseq => ?_, fun hseq hnode => ?_, ?_,
    fun hst => ?_, fun hl => ?_⟩, fun k tag turn edge p s hk hl hreq => ?_⟩
  · exact next_withDev (Dev.doHello_taken hk (by simp [hl]))
  · exact next_withDev (Dev.doHello_lost hk hl)
  · exact next_withDev (Dev.doHello_taken hk rfl)
  · exact next_withDev (Dev.doHello_taken hk rfl)
  · exact next_withDev (Dev.doAck_admission hk hst hseq)
  · exact next_withDev (Dev.doAck_delay hk hseq hnode)
  · exact next_withDev ((if_neg (by omega)).trans rfl)
  · exact next_withDev (Dev.doLinkLoss_hello hk hst)
  · exact next_withDev (Dev.doLinkLoss_linked hk hl)
  · intro half win hwin d d'
    exact next_withDev (Dev.doEcho_kept hk hl hreq hwin)

end Sys2Proof.Machine
end

section
/-! Node events, the words of node housekeeping, and precharge (chapter 04). -/

namespace Sys2Proof.Machine
namespace Dev

/-- A raised event is set where its page's domain is on (R416). -/
theorem raise_sets (d : Dev) (p n : Nat) :
    ∃ q b, d.raise p n = { d with pages := q, bus := b } ∧ (d.pageOn p = true → bit (tget {} q p).raw n = true) := by
  obtain ⟨q, b, h⟩ := raise_eq d p n
  refine ⟨q, b, h, fun hon => ?_⟩
  have hpg := pg_raise_same n hon
  rw [h] at hpg
  rw [show tget {} q p = { d.pg p with raw := setBit (d.pg p).raw n true } from hpg]
  exact bit_setBit_true _ n

/-- Logging a node event changes NODE_LAST, the log, and the event of its code (R120). -/
theorem nodeLog_frame (d : Dev) (k code pos age edge : Nat) :
    ∃ q b c, d.nodeLog k code pos age edge =
        { d.updLink k (fun l => { l with lastCode := code, lastPos := pos }) with pages := q, bus := b, cap := c } ∧
      (∀ n, evBit code = some n → d.pageOn 0 = true → bit (tget {} q 0).raw n = true) ∧
      (c.logSeq = d.cap.logSeq + 1 ∨ c.logLost = sat1 32 d.cap.logLost) := by
  unfold nodeLog
  dsimp only
  obtain ⟨q, pba, sent, log, buf, seq, lost, off, h, hseq⟩ :=
    logEntry_frame (d.updLink k (fun l => { l with lastCode := code, lastPos := pos })) {
      ts := (d.updLink k (fun l => { l with lastCode := code, lastPos := pos })).evTs k age edge
      flags := if age = 0xFFF then 4 else 0, page := 0, bit := (evBit code).getD 255, detail := code, unit := k, sub := pos
      arg := ((0x400000 + code % 64 * 65536 + pos % 16 * 4096 + age % 4096 : Nat) : Int) }
  rw [h]
  split
  next n hn =>
    obtain ⟨q', b', hr, hset⟩ := raise_sets { d.updLink k (fun l => { l with lastCode := code, lastPos := pos }) with
      pages := q
      bus := { d.bus with pba := pba, sent := sent }
      cap := { d.cap with log := log, buf := buf, logSeq := seq, logLost := lost, lostOff := off } } 0 n
    refine ⟨q', b', _, hr, fun m hm hon => ?_, hseq⟩
    obtain rfl : n = m := Option.some.inj (hn.symm.trans hm)
    exact hset hon
  next hn =>
    exact ⟨_, _, _, rfl, fun n hm => absurd (hn.symm.trans hm) (by simp), hseq⟩

theorem pre_nodeLog (d : Dev) (k code pos age edge : Nat) : (d.nodeLog k code pos age edge).pre = d.pre := by
  obtain ⟨q, b, c, h, _⟩ := nodeLog_frame d k code pos age edge
  rw [h]
  rfl

theorem lk_nodeLog_same (d : Dev) (k code pos age edge : Nat) :
    (d.nodeLog k code pos age edge).lk k = { d.lk k with lastCode := code, lastPos := pos } := by
  obtain ⟨q, b, c, h, _⟩ := nodeLog_frame d k code pos age edge
  rw [h]
  exact lk_updLink_same d k (fun l => { l with lastCode := code, lastPos := pos })

/-- An event of a link that exists is logged, then acted on (R120). -/
theorem onEvent_of_link {d : Dev} {k : Nat} (h : k < 52) (code pos age edge : Nat) (f : Dev → Nat → Dev) :
    d.onEvent k code pos age edge f = f (d.nodeLog k code pos age edge) (d.evTs k age edge) :=
  if_neg (by omega)

theorem onEvent_eq {d d' : Dev} {k code pos age edge : Nat} {f : Dev → Nat → Dev} (hk : k < 52)
    (h : f (d.nodeLog k code pos age edge) (d.evTs k age edge) = d') : d.onEvent k code pos age edge f = d' :=
  (onEvent_of_link hk code pos age edge f).trans h

/-- An INTERLOCK with no other kept only waits for one (R97). -/
theorem doInterlock_alone {d : Dev} {now k ts : Nat} (h : (d.lk k).intlk = []) :
    d.doInterlock now k ts =
      (d.updLink k (fun l => { l with nIntlk := sat1 8 l.nIntlk, intlk := [ts] })).watchCause k := by
  unfold doInterlock
  dsimp only
  rw [lk_updLink_same]
  simp only [h, List.filter_nil, List.foldl_nil]
  rw [updLink_updLink]
  refine congrArg (fun d => d.watchCause k) (updLink_congr ?_)
  simp [h]

/-- A UVLO outside the bootstrap positions faults at once (R108). -/
theorem doUvlo_fault {d : Dev} {now k pos ts : Nat} (h : d.bootPos k pos = false) :
    d.doUvlo now k pos ts = (d.updLink k (fun l => { l with nUvlo := sat1 8 l.nUvlo })).nodeFault now k 3 ts := by
  unfold doUvlo
  exact if_neg (by
    change ¬(d.bootPos k pos = true)
    simp [h])

theorem doBypFail_leg {d : Dev} {now k ts : Nat} (h : 48 ≤ k) : d.doBypFail now k ts = d :=
  if_pos (by simp [isLeg, h])

/-- BYP_FAIL under Profile S exhausts the cell's string (R111, R112). -/
theorem doBypFail_string {d : Dev} {now k ts str : Nat} (hk : k < 48) (hprof : d.profC = false)
    (hstr : (d.faultDecide now k 9 ts).strOf k = some str) :
    d.doBypFail now k ts = (d.faultDecide now k 9 ts).exhaust now str := by
  unfold doBypFail
  rw [if_neg (by simp [isLeg, hk, hprof])]
  dsimp only
  rw [hstr]

end Dev

/-- Settles O33. -/
theorem nodeEventsAreLoggedAndFault : Obligations.NodeEventsAreLoggedAndFault := by
  unfold Obligations.NodeEventsAreLoggedAndFault
  refine ⟨fun d k code pos age edge => ?_, fun k pos age edge s hk => ?_⟩
  · obtain ⟨q, b, c, h, hraised, hlog⟩ := Dev.nodeLog_frame d k code pos age edge
    have hlk := Dev.lk_nodeLog_same d k code pos age edge
    refine ⟨by rw [hlk], by rw [hlk], fun x hx => ?_, ?_, ?_, ?_, ?_, ?_, ?_⟩ <;> rw [h]
    · exact Dev.lk_updLink_ne (d := d) (f := fun l => { l with lastCode := code, lastPos := pos }) hx
    · exact hraised
    · exact hlog
    all_goals rfl
  · refine ⟨next_withDev (Dev.onEvent_eq hk ?_), next_withDev (Dev.onEvent_eq hk ?_), next_withDev (Dev.onEvent_eq hk ?_), fun hpos => next_withDev (Dev.onEvent_eq hk ?_),
      fun hnone => next_withDev (Dev.onEvent_eq hk ?_), fun hleg => next_withDev (Dev.onEvent_eq hk ?_), fun str hcell hprof hstr => next_withDev (Dev.onEvent_eq hk ?_)⟩
    · rfl
    · rfl
    · rfl
    · exact Dev.doUvlo_fault hpos
    · refine Dev.doInterlock_alone ?_
      rw [Dev.lk_nodeLog_same]
      exact hnone
    · exact Dev.doBypFail_leg hleg
    · exact Dev.doBypFail_string hcell hprof hstr

/-- Settles O34. -/
theorem otherNodeEventsAndHousekeepingWordsAct : Obligations.OtherNodeEventsAndHousekeepingWordsAct := by
  unfold Obligations.OtherNodeEventsAndHousekeepingWordsAct
  refine ⟨fun k code pos age edge s hk => ⟨next_withDev (Dev.onEvent_eq hk ?_), next_withDev (Dev.onEvent_eq hk ?_), fun hcell hprof => next_withDev (Dev.onEvent_eq hk ?_),
    fun hwd => next_withDev (Dev.onEvent_eq hk ?_), next_withDev (Dev.onEvent_eq hk ?_), fun hcode => ?_, next_withDev (if_neg (by omega))⟩,
    fun k pos v s hk => ⟨fun hpos => ⟨next_withDev (if_pos hpos), next_withDev (if_pos hpos), next_withDev (if_pos hpos)⟩, next_withDev (if_pos hk),
      fun hcell => next_withDev (if_pos hcell)⟩⟩
  · rfl
  · rfl
  · exact if_pos (by simp [hcell, hprof])
  · exact if_pos hwd
  · rfl
  · refine next_withDev ((if_neg (by omega)).trans ?_)
    rw [Dev.onEvent_of_link hk]

namespace Dev

theorem pre_each_queueCtl (d : Dev) (l : List Nat) (w : Nat) : (d.each l (fun d k => d.queueCtl k w)).pre = d.pre := by
  have hone : ∀ (d : Dev) (k : Nat), (d.queueCtl k w).pre = d.pre := fun d k => by
    unfold queueCtl
    split <;> rfl
  unfold each
  induction l generalizing d with
  | nil => rfl
  | cons k r ih => exact (ih _).trans (hone d k)

section
variable {d : Dev} {now n : Nat} {sl : Slot}

/-- A precharge that nothing refuses sends each selected cell its target and is under way (R114). -/
theorem doPrecharge_begins (hnext : d.nextCmd 0x08 = some (n, sl)) (hcells : preMask sl ≠ [])
    (hstr : ∀ x ∈ preMask sl, (d.strOf x).isSome = true) (htgt : argLE sl 6 2 % 32768 ≠ 0)
    (hlim : 2 * (argLE sl 6 2 % 32768) < if d.profC then min (d.fld 0 0x64 15 0) (d.fld 0 0x68 15 0) else d.fld 0 0x64 15 0)
    (hms : argLE sl 8 2 ≠ 0) (hms' : argLE sl 8 2 ≤ 60000) (hstage : d.readyRun = true)
    (hstand : ∀ x ∈ preMask sl, (d.lk x).st = .standby ∧ d.holdOf x ≠ .bypass) (hearly : sl.early = 0) (hpre : d.pre = []) :
    d.doPrecharge now = { (d.beginCmd n).each (preMask sl) (fun d x => d.queueCtl x (ctlWord 0x02 (32768 + argLE sl 6 2 % 32768))) with
      pre := [⟨n, preMask sl, preMask sl, now, argLE sl 8 2⟩] } := by
  have hout : (preMask sl).filter (fun k => ((d.beginCmd n).strOf k).isNone) = [] := by
    simp only [List.filter_eq_nil_iff, Option.isNone_iff_eq_none]
    intro x hx hnone
    have hsome := hstr x hx
    rw [show d.strOf x = none from hnone] at hsome
    simp at hsome
  have hready : ((preMask sl).any (fun k => ((d.beginCmd n).lk k).st != .standby || (d.beginCmd n).holdOf k == .bypass)) = false := by
    simp only [List.any_eq_false, Bool.or_eq_true, bne_iff_ne, beq_iff_eq, not_or, not_not]
    exact hstand
  have hnew : ((d.beginCmd n).each (preMask sl) (fun d x => d.queueCtl x (ctlWord 0x02 (32768 + argLE sl 6 2 % 32768)))).pre = [] :=
    (pre_each_queueCtl _ _ _).trans hpre
  have hempty : (preMask sl).isEmpty = false := by simpa using hcells
  have hfree : (d.beginCmd n).pre.any (fun p => (preMask sl).any p.left.contains) = false := by
    rw [show (d.beginCmd n).pre = [] from hpre]
    rfl
  unfold doPrecharge
  simp only [hnext]
  have hfits : ¬((decide (argLE sl 6 2 % 32768 = 0) || decide ((if (d.beginCmd n).profC then
      min ((d.beginCmd n).fld 0 0x64 15 0) ((d.beginCmd n).fld 0 0x68 15 0) else (d.beginCmd n).fld 0 0x64 15 0) ≤
        2 * (argLE sl 6 2 % 32768))) = true) := by
    simp only [Bool.or_eq_true, decide_eq_true_eq, not_or, not_le]
    exact ⟨htgt, hlim⟩
  have htime : ¬((decide (argLE sl 8 2 = 0) || decide (60000 < argLE sl 8 2)) = true) := by
    simp only [Bool.or_eq_true, decide_eq_true_eq, not_or, not_lt]
    exact ⟨hms, hms'⟩
  have hrun : ¬((!(d.beginCmd n).readyRun || false) = true) := by
    rw [show (d.beginCmd n).readyRun = true from hstage]
    decide
  rw [hout, hempty, hready, hfree, if_neg (by simp), if_neg (by simp), if_neg hfits, if_neg htime, if_neg hrun,
    if_neg (by simp [hearly]), if_neg (by simp), hnew]
  rfl

/-- It ends where the first report of its nodes or its time says so, one precharge under way (R114). -/
theorem doPreTimeout_only {p : Pre} (h : d.pre = [p]) : d.doPreTimeout now p.slot = d.preEnd now p stTimeout := by
  simp [doPreTimeout, h]

theorem doPreFail_only {p : Pre} {k : Nat} (h : d.pre = [p]) (hk : p.cells.contains k = true) :
    d.doPreFail now k = d.preEnd now { p with left := p.left.filter (· != k) } stHwFault := by
  simp only [doPreFail, h, List.foldl_cons, List.foldl_nil, hk, if_true]

theorem doPreDone_last {p : Pre} {k : Nat} (h : d.pre = [p]) (hk : p.left = [k]) :
    d.doPreDone now k = ({ d with pre := [{ p with left := [] }] } : Dev).preEnd now { p with left := [] } stDone := by
  simp [doPreDone, h, hk]

end
end Dev

/-- Settles O41. -/
theorem prechargeRunsAndEnds : Obligations.PrechargeRunsAndEnds := by
  unfold Obligations.PrechargeRunsAndEnds
  intro n k pos age edge sl p s
  refine ⟨fun hnext hcells hstr htgt hlim hms hms' hstage hstand hearly hpre => ⟨_, rfl, ?_⟩, fun hpre => ?_,
    fun hpre hk hcell => ?_, fun hpre hk hleft => ⟨_, ?_, rfl⟩⟩
  · exact next_withDev (Dev.doPrecharge_begins hnext hcells hstr htgt hlim hms hms' hstage hstand hearly hpre)
  · exact next_withDev (Dev.doPreTimeout_only hpre)
  · exact next_withDev (Dev.onEvent_eq hk (Dev.doPreFail_only ((Dev.pre_nodeLog ..).trans hpre) hcell))
  · exact next_withDev (Dev.onEvent_eq hk (Dev.doPreDone_last ((Dev.pre_nodeLog ..).trans hpre) hleft))

end Sys2Proof.Machine
end

section
/-! What triggers, changes of stage and Hull's actions on units change: frames that name every part of the device they may
touch. -/

namespace Sys2Proof.Machine
namespace Dev

/-- What holds along each step of a walk over a list holds of the walk. -/
theorem foldl_frame {α : Type} {R : Dev → Dev → Prop} (hrefl : ∀ d, R d d) (htrans : ∀ {a b c}, R a b → R b c → R a c)
    {f : Dev → α → Dev} (hstep : ∀ d x, R d (f d x)) (l : List α) (d : Dev) : R d (l.foldl f d) := by
  induction l generalizing d with
  | nil => exact hrefl d
  | cons x r ih => exact htrans (hstep d x) (ih _)

/-- What the capture unit does of itself: its own state, its events and their messages; every key and every other page's
events stand. -/
def CapEvents (d d' : Dev) : Prop :=
  ∃ q b c, d' = { d with pages := q, bus := b, cap := c } ∧ (∀ p, (tget {} q p).unlocked = (d.pg p).unlocked) ∧
    ∀ p, p ≠ 0x2C → tget {} q p = d.pg p

namespace CapEvents

theorem refl (d : Dev) : CapEvents d d := ⟨_, _, _, rfl, fun _ => rfl, fun _ _ => rfl⟩

theorem trans {a b c : Dev} (h : CapEvents a b) (h' : CapEvents b c) : CapEvents a c := by
  obtain ⟨q, u, k, rfl, hkey, hpg⟩ := h
  obtain ⟨q', u', k', rfl, hkey', hpg'⟩ := h'
  exact ⟨q', u', k', rfl, fun p => (hkey' p).trans (hkey p), fun p hp => (hpg' p hp).trans (hpg p hp)⟩

theorem modCap (d : Dev) (f : Capture → Capture) : CapEvents d (d.modCap f) := ⟨_, _, _, rfl, fun _ => rfl, fun _ _ => rfl⟩

end CapEvents

/-- An event changes no key (R403, R416). -/
theorem unlocked_raise (d : Dev) (p n x : Nat) : ((d.raise p n).pg x).unlocked = (d.pg x).unlocked := by
  by_cases hx : x = p
  · subst hx
    by_cases hon : d.pageOn x = true
    · rw [pg_raise_same n hon]
    · rw [raise_off (by simpa using hon)]
  · rw [pg_raise_ne n hx]

namespace CapEvents

theorem raise (d : Dev) (n : Nat) : CapEvents d (d.raise 0x2C n) := by
  obtain ⟨q, b, h⟩ := raise_eq d 0x2C n
  have hkey := unlocked_raise d 0x2C n
  have hpg := fun p (hp : p ≠ 0x2C) => pg_raise_ne (d := d) n hp
  rw [h] at hkey hpg ⊢
  exact ⟨q, b, d.cap, rfl, hkey, hpg⟩

theorem ite {d a b : Dev} {c : Prop} [Decidable c] (ha : CapEvents d a) (hb : CapEvents d b) :
    CapEvents d (if c then a else b) := by
  split
  · exact ha
  · exact hb

theorem updRing (d : Dev) (i : Nat) (f : RingSt → RingSt) : CapEvents d (d.updRing i f) := modCap d _

theorem logDrain (d : Dev) : CapEvents d d.logDrain := by
  obtain ⟨log, buf, h⟩ := logDrain_frame d
  rw [h]
  exact ⟨_, _, _, rfl, fun _ => rfl, fun _ _ => rfl⟩

theorem logEntry (d : Dev) (e : LogEntry) : CapEvents d (d.logEntry e) := by
  unfold Dev.logEntry
  dsimp only
  split
  · exact (logDrain d).trans (modCap _ _)
  · split
    · exact (logDrain d).trans (modCap _ _)
    · split
      · exact (logDrain d).trans ((modCap _ _).trans (raise _ 4))
      · exact (logDrain d).trans (modCap _ _)

theorem ringTrig (d : Dev) (i src unit stamp fine : Nat) : CapEvents d (d.ringTrig i src unit stamp fine) := by
  unfold Dev.ringTrig
  refine ite (refl d) (trans ?_ (raise _ 0))
  split
  · exact updRing d i _
  · exact (updRing d i _).trans (modCap _ _)

theorem trigger (d : Dev) (now src unit stamp fine : Nat) : CapEvents d (d.trigger now src unit stamp fine) := by
  have hrings : CapEvents d ([0, 1, 3].foldl (fun d i => d.ringTrig i src unit stamp fine) d) :=
    foldl_frame refl trans (fun d i => ringTrig d i src unit stamp fine) _ d
  exact (ite hrings (refl d)).trans (ite (modCap _ _) (refl _))

theorem pinTrig (d old : Dev) (now : Nat) : CapEvents d (d.pinTrig old now) := by
  unfold Dev.pinTrig
  split
  · exact trigger d now 6 255 now 0
  · exact refl d

end CapEvents

/-- The stream ports alone change (R325, R335, R340). -/
def PortsOnly (d d' : Dev) : Prop := ∃ p, d' = { d with port := p }

namespace PortsOnly

theorem refl (d : Dev) : PortsOnly d d := ⟨_, rfl⟩

theorem trans {a b c : Dev} (h : PortsOnly a b) (h' : PortsOnly b c) : PortsOnly a c := by
  obtain ⟨p, rfl⟩ := h
  obtain ⟨p', rfl⟩ := h'
  exact ⟨p', rfl⟩

theorem updPort (d : Dev) (n : Nat) (f : Port → Port) : PortsOnly d (d.updPort n f) := ⟨_, rfl⟩

theorem rxClose (d : Dev) (now n : Nat) : PortsOnly d (d.rxClose now n) := by
  unfold Dev.rxClose
  split
  · exact refl d
  · exact updPort d n _

theorem rxWake (d : Dev) (now n : Nat) (ready : Bool) : PortsOnly d (d.rxWake now n ready) := by
  unfold Dev.rxWake
  split
  · exact updPort d n _
  · exact refl d

theorem rxLatCheck (d : Dev) (now : Nat) : PortsOnly d (d.rxLatCheck now) := by
  refine foldl_frame refl trans (fun d n => ?_) _ d
  split
  · exact updPort d n _
  · exact refl d

theorem streamStage (d : Dev) (now : Nat) (st : Stage) : PortsOnly d (d.streamStage now st) := by
  unfold Dev.streamStage
  dsimp only
  split
  · exact foldl_frame refl trans (fun d n => (rxClose d now n).trans (updPort _ n _)) _ d
  · split
    · exact foldl_frame refl trans (fun d n => (rxWake d now n true).trans ((rxLatCheck _ now).trans (updPort _ n _))) _ d
    · exact refl d

end PortsOnly

/-- The value of one entry after a walk that changes each of some entries. -/
theorem tget_foldl_tupd {α : Type} [DecidableEq α] (z : α) (f : α → α) (l : List Nat) (hl : l.Nodup) (m : Tbl α) (k : Nat) :
    tget z (l.foldl (fun m p => tupd z m p f) m) k = if k ∈ l then f (tget z m k) else tget z m k := by
  induction l generalizing m with
  | nil => rfl
  | cons p r ih =>
    obtain ⟨hp, hr⟩ := List.nodup_cons.mp hl
    rw [List.foldl_cons, ih hr]
    by_cases hk : k = p
    · subst hk
      simp [hp, tupd]
    · simp [hk, tupd, tget_tset_ne _ _ _ _ _ _ hk]

theorem pg_relock (d : Dev) (p : Nat) :
    d.relock.pg p = if p < 64 then { d.pg p with unlocked := false } else d.pg p := by
  have h := tget_foldl_tupd {} (fun q : Page => { q with unlocked := false }) (List.range 64) List.nodup_range d.pages p
  simp only [List.mem_range] at h
  exact h

/-- Events, their messages, records and strings' marks change; every key stands. -/
def KeysStand (d d' : Dev) : Prop :=
  ∃ q b c v, d' = { d with pages := q, bus := b, cap := c, vstr := v } ∧ ∀ p, (tget {} q p).unlocked = (d.pg p).unlocked

namespace KeysStand

theorem refl (d : Dev) : KeysStand d d := ⟨_, _, _, _, rfl, fun _ => rfl⟩

theorem trans {a b c : Dev} (h : KeysStand a b) (h' : KeysStand b c) : KeysStand a c := by
  obtain ⟨q, u, k, v, rfl, hkey⟩ := h
  obtain ⟨q', u', k', v', rfl, hkey'⟩ := h'
  exact ⟨q', u', k', v', rfl, fun p => (hkey' p).trans (hkey p)⟩

theorem ofCap {d d' : Dev} (h : CapEvents d d') : KeysStand d d' := by
  obtain ⟨q, b, c, h, hkey, _⟩ := h
  exact ⟨q, b, c, d.vstr, h, hkey⟩

theorem raise (d : Dev) (p n : Nat) : KeysStand d (d.raise p n) := by
  obtain ⟨q, b, h⟩ := raise_eq d p n
  have hkey := unlocked_raise d p n
  rw [h] at hkey ⊢
  exact ⟨q, b, _, _, rfl, hkey⟩

theorem raiseLog (d : Dev) (ts p n unit detail sub : Nat) (arg : Int) :
    KeysStand d (d.raiseLog ts p n unit detail sub arg) :=
  (raise d p n).trans (ofCap (CapEvents.logEntry _ _))

theorem updStr (d : Dev) (s : Nat) (f : VStr → VStr) : KeysStand d (d.updStr s f) := ⟨_, _, _, _, rfl, fun _ => rfl⟩

theorem ite {d a b : Dev} {c : Prop} [Decidable c] (ha : KeysStand d a) (hb : KeysStand d b) :
    KeysStand d (if c then a else b) := by
  split
  · exact ha
  · exact hb

end KeysStand

/-- The parts of a change of stage: the ports and the pins, the keys, and its log entries (R370, R382). -/
def stagePins (d : Dev) (now : Nat) (st : Stage) (why : Nat) : Dev :=
  (({ d.streamStage now st with vLat := false } : Dev).modBoot
    (fun b => { b with stage := st, last := d.boot.stage, why := why, warm := false })).pinTrig d now
def stageKeys (d old : Dev) (st : Stage) : Dev :=
  if decide (st.rank < old.boot.stage.rank) || st == .cooldown || st == .halt then d.relock else d
def stageLog (d old : Dev) (now : Nat) (st : Stage) : Dev :=
  let d := d.raiseLog now 0 0
  let d := if st == .run then
      (d.each (List.range 4) (fun d s => d.updStr s (fun v => { v with
        watch := false, exh := false, low := false, prevE := [], light := 0, isLight := false }))).raiseLog now 2 12
    else d
  if old.boot.stage == .run then d.raiseLog now 2 13 else d

theorem setStage_eq (d : Dev) (now : Nat) (st : Stage) (why : Nat) :
    d.setStage now st why = (((d.stagePins now st why).stageKeys d st).stageLog d now st) := rfl

theorem stageLog_keys (d old : Dev) (now : Nat) (st : Stage) : KeysStand d (d.stageLog old now st) := by
  have hlog := fun (d : Dev) (p n : Nat) => KeysStand.raiseLog d now p n 255 0 0 0
  have hmarks := fun (d : Dev) => KeysStand.ite (c := (st == .run) = true)
    ((foldl_frame KeysStand.refl KeysStand.trans (fun d s => KeysStand.updStr d s (fun v => { v with
      watch := false, exh := false, low := false, prevE := [], light := 0, isLight := false })) (List.range 4) d).trans (hlog _ 2 12))
    (KeysStand.refl d)
  exact (hlog d 0 0).trans ((hmarks _).trans (KeysStand.ite (hlog _ 2 13) (KeysStand.refl _)))

/-- A change of stage (R369, R370): STAGE, LAST and WHY; the stream ports, the events and the keys that follow. -/
theorem setStage_frame (d : Dev) (now : Nat) (st : Stage) (why : Nat) :
    ∃ q b c p v, d.setStage now st why = { d with
        boot := { d.boot with stage := st, last := d.boot.stage, why := why, warm := false }
        pages := q, bus := b, cap := c, port := p, vstr := v, vLat := false } ∧
      ((st.rank < d.boot.stage.rank ∨ st = .cooldown ∨ st = .halt) → ∀ p, p < 64 → (tget {} q p).unlocked = false) := by
  obtain ⟨p, hp⟩ := PortsOnly.streamStage d now st
  have hpins := CapEvents.pinTrig ({ d with
    port := p, vLat := false, boot := { d.boot with stage := st, last := d.boot.stage, why := why, warm := false } } : Dev) d now
  obtain ⟨q, b, c, hpins, -⟩ := hpins
  have hkeys : ∃ q', (d.stagePins now st why).stageKeys d st = { d with
        boot := { d.boot with stage := st, last := d.boot.stage, why := why, warm := false }
        pages := q', bus := b, cap := c, port := p, vLat := false } ∧
      ((st.rank < d.boot.stage.rank ∨ st = .cooldown ∨ st = .halt) → ∀ p, p < 64 → (tget {} q' p).unlocked = false) := by
    have hpinned : d.stagePins now st why = { d with
        boot := { d.boot with stage := st, last := d.boot.stage, why := why, warm := false }
        pages := q, bus := b, cap := c, port := p, vLat := false } := by
      unfold stagePins
      rw [hp]
      exact hpins
    rw [hpinned]
    unfold stageKeys
    split
    next hfall =>
      refine ⟨_, rfl, fun _ x hx => ?_⟩
      have hx' := pg_relock ({ d with
        boot := { d.boot with stage := st, last := d.boot.stage, why := why, warm := false }
        pages := q, bus := b, cap := c, port := p, vLat := false } : Dev) x
      rw [if_pos hx] at hx'
      exact congrArg Page.unlocked hx'
    next hstay =>
      refine ⟨_, rfl, fun hfall => absurd ?_ hstay⟩
      simpa [or_assoc] using hfall
  obtain ⟨q', hkeys, hlocked⟩ := hkeys
  obtain ⟨q'', b', c', v', hlog, hstand⟩ := stageLog_keys ((d.stagePins now st why).stageKeys d st) d now st
  rw [hkeys] at hlog hstand
  refine ⟨q'', b', c', p, v', ?_, fun hfall x hx => (hstand x).trans (hlocked hfall x hx)⟩
  rw [setStage_eq, hkeys, hlog]

end Dev
end Sys2Proof.Machine
end

section
/-! Hull's actions on units and the end of what uses a domain; the obligations on arming, stages, holds and causes
(chapter 15). -/

namespace Sys2Proof.Machine
namespace Dev

theorem endCmd_frame (d : Dev) (now n st res : Nat) : ∃ b, d.endCmd now n st res = { d with bus := b } := by
  unfold endCmd
  split
  · split
    · exact ⟨_, rfl⟩
    · exact ⟨_, rfl⟩
  · exact ⟨_, rfl⟩

/-- Hull's actions on units: registers, events, commands, links, modulators, diagnostics, precharges and captures. -/
def UnitActs (d d' : Dev) : Prop :=
  ∃ r q b l ch g c p, d' = { d with
    regs := r, pages := q, bus := b, link := l, chord := ch, diag := g, cap := c, pre := p }

namespace UnitActs

theorem refl (d : Dev) : UnitActs d d := ⟨_, _, _, _, _, _, _, _, rfl⟩

theorem trans {a b c : Dev} (h : UnitActs a b) (h' : UnitActs b c) : UnitActs a c := by
  obtain ⟨_, _, _, _, _, _, _, _, rfl⟩ := h
  obtain ⟨_, _, _, _, _, _, _, _, rfl⟩ := h'
  exact ⟨_, _, _, _, _, _, _, _, rfl⟩

theorem ite {d a b : Dev} {c : Prop} [Decidable c] (ha : UnitActs d a) (hb : UnitActs d b) :
    UnitActs d (if c then a else b) := by
  split
  · exact ha
  · exact hb

theorem endCmd (d : Dev) (now n st res : Nat) : UnitActs d (d.endCmd now n st res) := by
  obtain ⟨b, h⟩ := endCmd_frame d now n st res
  rw [h]
  exact ⟨_, _, _, _, _, _, _, _, rfl⟩

theorem raiseLog (d : Dev) (ts p n unit detail sub : Nat) (arg : Int) :
    UnitActs d (d.raiseLog ts p n unit detail sub arg) := by
  obtain ⟨q, b, c, h⟩ := raiseLog_frame d ts p n unit detail sub arg
  rw [h]
  exact ⟨_, _, _, _, _, _, _, _, rfl⟩

theorem trigger (d : Dev) (now src unit stamp fine : Nat) : UnitActs d (d.trigger now src unit stamp fine) := by
  obtain ⟨q, b, c, h, -⟩ := CapEvents.trigger d now src unit stamp fine
  rw [h]
  exact ⟨_, _, _, _, _, _, _, _, rfl⟩

theorem updLink (d : Dev) (k : Nat) (f : Link → Link) : UnitActs d (d.updLink k f) := ⟨_, _, _, _, _, _, _, _, rfl⟩
theorem updChord (d : Dev) (k : Nat) (f : Chord → Chord) : UnitActs d (d.updChord k f) := ⟨_, _, _, _, _, _, _, _, rfl⟩
theorem modDiag (d : Dev) (f : Diag → Diag) : UnitActs d (d.modDiag f) := ⟨_, _, _, _, _, _, _, _, rfl⟩
theorem wr (d : Dev) (p o v : Nat) : UnitActs d (d.wr p o v) := ⟨_, _, _, _, _, _, _, _, rfl⟩

theorem setPre (d : Dev) (l : List Pre) : UnitActs d { d with pre := l } := ⟨_, _, _, _, _, _, _, _, rfl⟩

theorem queueCtl (d : Dev) (u w : Nat) : UnitActs d (d.queueCtl u w) := ite (updLink d u _) (refl d)

theorem preEnd (d : Dev) (now : Nat) (p : Pre) (st : Nat) : UnitActs d (d.preEnd now p st) := by
  have hstop : UnitActs d (d.each p.left (fun d k => d.queueCtl k (ctlWord 0x02 0))) :=
    foldl_frame refl trans (fun d k => queueCtl d k _) _ d
  exact (ite (refl d) hstop).trans ((setPre _ _).trans (endCmd _ now p.slot st 0))

theorem preHit (d : Dev) (now u st : Nat) : UnitActs d (d.preHit now u st) :=
  foldl_frame refl trans (fun d p => ite (preEnd d now p st) (refl d)) _ d

theorem osAbort (d : Dev) (now : Nat) : UnitActs d (d.osAbort now) :=
  ite ((endCmd d now _ _ 0).trans (modDiag _ _)) (refl d)

theorem ptAbort (d : Dev) (now : Nat) : UnitActs d (d.ptAbort now) :=
  ite ((endCmd d now _ _ 0).trans (modDiag _ _)) (refl d)

theorem diagHit (d : Dev) (now u : Nat) (h : Hold) : UnitActs d (d.diagHit now u h) :=
  (ite (osAbort d now) (refl d)).trans (ite (ptAbort _ now) (refl _))

theorem sendSafe (d : Dev) (u : Nat) (h : Hold) : UnitActs d (d.sendSafe u h) := (updLink d u _).trans (updChord _ u _)

theorem withdrawClear (d : Dev) (k : Nat) : UnitActs d (d.withdrawClear k) := by
  unfold Dev.withdrawClear
  split
  · exact ite (wr d _ _ _) (refl d)
  · exact refl d

/-- A change of the safe state in force reaches the unit and nothing of Hull (R103, R114). -/
theorem safeChange (d : Dev) (now u : Nat) (before : Hold) : UnitActs d (d.safeChange now u before) := by
  unfold Dev.safeChange
  dsimp only
  split
  · refine (preHit d now u stAborted).trans ((diagHit _ now u (d.effective u)).trans ?_)
    exact (sendSafe _ u (d.effective u)).trans ((withdrawClear _ u).trans (trigger _ now 6 u now 0))
  · exact refl d

end UnitActs

theorem armBlock_eq (now : Nat) : armBlock now = (now + 20000 + 245759) / 245760 := by
  unfold armBlock blockNs
  omega

section
variable {d : Dev} {now n : Nat} {sl : Slot}

/-- An arm that no condition refuses waits for its block boundary (R391, R392). -/
theorem doArm_waits (hnext : d.nextCmd 0x01 = some (n, sl)) (hearly : sl.early = 0) (hok : (d.beginCmd n).armRefused now = false)
    (hcool : d.tDie < ((8 * d.hull.tsdThr : Nat) : Rat) - 80) (hbusy : d.armBusy = false) :
    d.doArm now = (d.beginCmd n).modBoot (fun b => { b with arming := some ((now + 20000 + 245759) / 245760, n) }) := by
  have hwarm : ¬(decide (((8 * (d.beginCmd n).hull.tsdThr : Nat) : Rat) - 80 ≤ (d.beginCmd n).tDie) = true) := by
    rw [decide_eq_true_eq, not_le]
    exact hcool
  have hfree : ¬((d.beginCmd n).armBusy = true) := by
    rw [show (d.beginCmd n).armBusy = false from hbusy]
    decide
  simp only [doArm, hnext]
  rw [if_neg (by simp [hearly, hok]), if_neg hwarm, if_neg hfree, armBlock_eq]

/-- At the boundary of an arm RUN begins, unless the stage has fallen (R392). -/
theorem doArmed_run {b : Nat} (harm : d.boot.arming = some (b, n)) (hst : d.boot.stage = .ready) :
    d.doArmed now b =
      (((((((d.modBoot (fun x => { x with arming := none })).setStage now .run 1).modHull
        (fun h => { h with trip := false, disarm := .none, engStop := 0, kick := now })).each
          (allUnits.filter ((((d.modBoot (fun x => { x with arming := none })).setStage now .run 1).modHull
            (fun h => { h with trip := false, disarm := .none, engStop := 0, kick := now })).mayActive)
        ) (fun d k => d.enterActive now k)).boundaryRest now)).endCmd now n 0) := by
  have hready : ¬(((d.modBoot (fun b => { b with arming := none })).stage != .ready) = true) := by
    change ¬((d.boot.stage != .ready) = true)
    simp [hst]
  simp only [doArmed, harm]
  rw [if_neg (by simp), if_neg hready]
  rfl

theorem disarmEnd_frame (d : Dev) (now : Nat) :
    ∃ b x, d.disarmEnd now = { d with bus := b, boot := { d.boot with disarming := x } } := by
  unfold disarmEnd
  split
  · split
    next m _ _ =>
      obtain ⟨b, h⟩ := endCmd_frame d now m stDone 0
      rw [h]
      exact ⟨_, _, rfl⟩
    next => exact ⟨_, _, rfl⟩
  · exact ⟨_, _, rfl⟩

/-- A disarm puts every unheld unit in its state and drops the stage to READY; no hold and no cause changes (R393). -/
theorem doDisarm_frame (hnext : d.nextCmd 0x02 = some (n, sl)) (harg : argLE sl 0 1 = 1 ∨ argLE sl 0 1 = 2)
    (hst : d.boot.stage = .run) (hbusy : d.armBusy = false) :
    (d.doDisarm now).hull = { d.hull with disarm := if argLE sl 0 1 = 1 then .off else .zero } ∧
      (d.doDisarm now).boot.stage = .ready ∧ (d.doDisarm now).boot.last = .run ∧ (d.doDisarm now).boot.why = 2 := by
  have hrun : ¬(((d.beginCmd n).stage != .run) = true) := by
    change ¬((d.boot.stage != .run) = true)
    simp [hst]
  have hfree : ¬((d.beginCmd n).armBusy = true) := by
    rw [show (d.beginCmd n).armBusy = false from hbusy]
    decide
  simp only [doDisarm, hnext]
  rw [if_neg (by omega), if_neg hrun, if_neg hfree]
  obtain ⟨_, _, _, _, _, _, _, _, hunits⟩ := foldl_frame UnitActs.refl UnitActs.trans
    (fun d (ub : Nat × Hold) => UnitActs.safeChange d now ub.1 ub.2) (allUnits.zip (allUnits.map (d.beginCmd n).effective))
    ((d.beginCmd n).modHull (fun h => { h with disarm := if argLE sl 0 1 = 1 then .off else .zero }))
  rw [hunits]
  obtain ⟨q, b, c, p, v, hset, -⟩ := setStage_frame _ now .ready 2
  rw [hset]
  obtain ⟨b', dis, hend⟩ := disarmEnd_frame _ now
  rw [hend]
  exact ⟨rfl, rfl, hst, rfl⟩

end
end Dev
end Sys2Proof.Machine
end

section
/-! Arming, the stages, holds and causes (R369 to R393). -/

namespace Sys2Proof.Machine

/-- Settles O36. -/
theorem armAndDisarmAct : Obligations.ArmAndDisarmAct := by
  unfold Obligations.ArmAndDisarmAct
  intro n sl s
  refine ⟨fun hnext hearly hok hcool hbusy => ?_, fun b harm hst => ?_, fun hnext harg hst hbusy => ?_⟩
  · exact next_withDev (Dev.doArm_waits hnext hearly hok hcool hbusy)
  · exact next_withDev (Dev.doArmed_run harm hst)
  · obtain ⟨hhull, hstage, hlast, hwhy⟩ := Dev.doDisarm_frame (now := s.now) hnext harg hst hbusy
    exact ⟨s.withDev (s.dev.doDisarm s.now), rfl, rfl, rfl, rfl, hstage, hlast, hwhy, by rw [hhull], by rw [hhull], by rw [hhull]⟩

namespace Dev

/-- The end of what uses a domain: commands and the blocks' own states; registers, domains and the stage stand. -/
def BlockStops (d d' : Dev) : Prop :=
  ∃ b l p c g n f, d' = { d with bus := b, lat := l, prism := p, cap := c, diag := g, nvm := n, free := f }

namespace BlockStops

theorem refl (d : Dev) : BlockStops d d := ⟨_, _, _, _, _, _, _, rfl⟩

theorem trans {a b c : Dev} (h : BlockStops a b) (h' : BlockStops b c) : BlockStops a c := by
  obtain ⟨_, _, _, _, _, _, _, rfl⟩ := h
  obtain ⟨_, _, _, _, _, _, _, rfl⟩ := h'
  exact ⟨_, _, _, _, _, _, _, rfl⟩

theorem ite {d a b : Dev} {c : Prop} [Decidable c] (ha : BlockStops d a) (hb : BlockStops d b) :
    BlockStops d (if c then a else b) := by
  split
  · exact ha
  · exact hb

theorem endCmd (d : Dev) (now n st res : Nat) : BlockStops d (d.endCmd now n st res) := by
  obtain ⟨b, h⟩ := endCmd_frame d now n st res
  rw [h]
  exact ⟨_, _, _, _, _, _, _, rfl⟩

theorem updCtx (d : Dev) (k : Nat) (f : Ctx → Ctx) : BlockStops d (d.updCtx k f) := ⟨_, _, _, _, _, _, _, rfl⟩
theorem updChan (d : Dev) (k : Nat) (f : Chan → Chan) : BlockStops d (d.updChan k f) := ⟨_, _, _, _, _, _, _, rfl⟩
theorem modPrism (d : Dev) (f : Prism → Prism) : BlockStops d (d.modPrism f) := ⟨_, _, _, _, _, _, _, rfl⟩
theorem modCap (d : Dev) (f : Capture → Capture) : BlockStops d (d.modCap f) := ⟨_, _, _, _, _, _, _, rfl⟩
theorem modNvm (d : Dev) (f : Nvm → Nvm) : BlockStops d (d.modNvm f) := ⟨_, _, _, _, _, _, _, rfl⟩
theorem modDiag (d : Dev) (f : Diag → Diag) : BlockStops d (d.modDiag f) := ⟨_, _, _, _, _, _, _, rfl⟩
theorem drawFree (d : Dev) : BlockStops d d.drawFree.2 := ⟨_, _, _, _, _, _, _, rfl⟩

theorem osAbort (d : Dev) (now : Nat) : BlockStops d (d.osAbort now) :=
  ite ((endCmd d now _ _ 0).trans (modDiag _ _)) (refl d)

theorem ptAbort (d : Dev) (now : Nat) : BlockStops d (d.ptAbort now) :=
  ite ((endCmd d now _ _ 0).trans (modDiag _ _)) (refl d)

theorem abortDomain (d : Dev) (now pd : Nat) : BlockStops d (d.abortDomain now pd) := by
  unfold Dev.abortDomain
  refine ite ?_ (ite ?_ (ite ?_ (ite ?_ (refl d))))
  · refine foldl_frame refl trans (fun d c => ?_) _ d
    split
    · exact (endCmd d now _ _ 0).trans (updCtx _ c _)
    · exact refl d
  · refine trans (foldl_frame refl trans (fun d c => ?_) _ d) (foldl_frame refl trans (fun d k => ?_) _ _)
    · split
      · exact (endCmd d now _ _ 0).trans (modPrism _ _)
      · exact refl d
    · have hpend : ∀ (d' : Dev) (o : Option (Nat × Nat × Nat)), BlockStops d' ((match o with
          | some (n, _, _) => d'.endCmd now n stAborted
          | none => d').updChan k (fun c => { c with fade := none, pend := none })) := by
        intro d' o
        refine trans ?_ (updChan _ k _)
        split
        · exact endCmd _ now _ _ 0
        · exact refl _
      dsimp only
      cases (d.chan k).fade with
      | none => exact hpend d _
      | some f => exact (endCmd d now f.slot stAborted 0).trans (hpend _ _)
  · exact (foldl_frame refl trans (fun d (r : CapRead) => endCmd d now r.slot stAborted 0) _ d).trans
      ((foldl_frame refl trans (fun d (r : Nat × Nat × Nat) => endCmd d now r.1 stAborted 0) _ _).trans (modCap _ _))
  · refine trans ?_ ((osAbort _ now).trans (ptAbort _ now))
    split
    · exact (endCmd d now _ _ 0).trans (modNvm _ _)
    · exact refl d

theorem chanQuiet (d : Dev) (now k : Nat) (st : ChanState) : BlockStops d (d.chanQuiet now k st) := by
  unfold Dev.chanQuiet
  dsimp only
  have hends := fun l => foldl_frame refl trans (fun d n => endCmd d now n stDone 0) l d
  unfold each
  generalize List.filterMap (fun x => x.done) (d.chan k).wait ++ (match (d.chan k).fade with
    | some f => if (List.filterMap (fun x => x.done) (d.chan k).wait).contains f.slot = true then [] else [f.slot]
    | none => []) = ends
  refine (hends ends).trans (trans ?_ ((drawFree _).trans (updChan _ k _)))
  split
  · exact endCmd _ now _ _ 0
  · exact refl _

theorem chanStop (d : Dev) (now k : Nat) : BlockStops d (d.chanStop now k) := ite (refl d) (chanQuiet d now k _)

theorem blockStop (d : Dev) (now pd : Nat) : BlockStops d (d.blockStop now pd) :=
  (ite (foldl_frame refl trans (fun d k => chanStop d now k) _ d) (refl d)).trans (abortDomain _ now pd)

end BlockStops

/-- The end of what uses a domain, with its request and its state: the stage stands. -/
def DomainStops (d d' : Dev) : Prop :=
  ∃ r b w l p c g n f, d' = { d with
    regs := r, bus := b, pwr := w, lat := l, prism := p, cap := c, diag := g, nvm := n, free := f }

namespace DomainStops

theorem refl (d : Dev) : DomainStops d d := ⟨_, _, _, _, _, _, _, _, _, rfl⟩

theorem trans {a b c : Dev} (h : DomainStops a b) (h' : DomainStops b c) : DomainStops a c := by
  obtain ⟨_, _, _, _, _, _, _, _, _, rfl⟩ := h
  obtain ⟨_, _, _, _, _, _, _, _, _, rfl⟩ := h'
  exact ⟨_, _, _, _, _, _, _, _, _, rfl⟩

theorem ite {d a b : Dev} {c : Prop} [Decidable c] (ha : DomainStops d a) (hb : DomainStops d b) :
    DomainStops d (if c then a else b) := by
  split
  · exact ha
  · exact hb

theorem ofBlock {d d' : Dev} (h : BlockStops d d') : DomainStops d d' := by
  obtain ⟨_, _, _, _, _, _, _, rfl⟩ := h
  exact ⟨_, _, _, _, _, _, _, _, _, rfl⟩

theorem modPwr (d : Dev) (f : Pwr → Pwr) : DomainStops d (d.modPwr f) := ⟨_, _, _, _, _, _, _, _, _, rfl⟩
theorem wr (d : Dev) (p o v : Nat) : DomainStops d (d.wr p o v) := ⟨_, _, _, _, _, _, _, _, _, rfl⟩

theorem turnOff (d : Dev) (pd : Nat) : DomainStops d (d.turnOff pd) :=
  (wr d 1 0x20 _).trans (ite (modPwr _ _) (refl _))

theorem ownOff (d : Dev) (now pd : Nat) : DomainStops d (d.ownOff now pd) :=
  (ofBlock (BlockStops.blockStop d now pd)).trans (turnOff _ pd)

theorem boot {d d' : Dev} (h : DomainStops d d') : d'.boot = d.boot := by
  obtain ⟨_, _, _, _, _, _, _, _, _, rfl⟩ := h
  rfl

end DomainStops

theorem boot_each_ownOff (d : Dev) (now : Nat) (l : List Nat) : (d.each l (fun d pd => d.ownOff now pd)).boot = d.boot :=
  DomainStops.boot (foldl_frame DomainStops.refl DomainStops.trans (fun d pd => DomainStops.ownOff d now pd) l d)

theorem stage_setStage (d : Dev) (now : Nat) (st : Stage) (why : Nat) : (d.setStage now st why).boot =
    { d.boot with stage := st, last := d.boot.stage, why := why, warm := false } := by
  obtain ⟨q, b, c, p, v, h, -⟩ := setStage_frame d now st why
  rw [h]

theorem boot_setReady (d : Dev) (l : List Nat) (b : Bool) : (d.setReady l b).boot = d.boot :=
  foldl_frame (R := fun d d' => d'.boot = d.boot) (f := fun d p => d.updPage p (fun q => { q with ready := b }))
    (fun _ => rfl) (fun h h' => h'.trans h) (fun _ _ => rfl) l d

theorem stage_enterAware (d : Dev) (now why : Nat) : (d.enterAware now why).boot.stage = .aware := by
  have hset := congrArg Boot.stage (stage_setStage d now .aware why)
  unfold enterAware
  dsimp only
  rw [boot_setReady]
  split
  · exact hset
  · rw [boot_setReady]
    exact hset

theorem doSafeEntry_passed {d : Dev} {now : Nat} (hst : d.boot.stage = .reset) (hpor : d.boot.por = false)
    (htsd : d.hull.tsdReset = false) : d.doSafeEntry now true = d.hostOn.setStage now .safe 0 := by
  have hstage : d.stage = .reset := hst
  simp [doSafeEntry, hstage, hpor, htsd]

theorem doSafeEntry_failed (d : Dev) (now : Nat) : d.doSafeEntry now false = d := by
  simp [doSafeEntry]

theorem doSelfTest_passed {d : Dev} {now : Nat} (hst : d.boot.stage = .aware) (hload : d.boot.loaded = true) :
    d.doSelfTest now 0 = d.setStage now .ready 7 := by
  have hstage : d.stage = .aware := hst
  have hnone : ofBits ((onBits 8 0).filter d.itemOn) = 0 := rfl
  simp only [doSelfTest, hstage, hload, hnone]
  rfl

/-- Item 0 belongs to no domain: its failure counts whatever is on (R372, Table 15.3). -/
theorem doSelfTest_item0 {d : Dev} {now : Nat} (hst : d.boot.stage = .aware) (hload : d.boot.loaded = true) :
    d.doSelfTest now 1 = ((d.modBoot (fun b => { b with stFail := 1 })).setStage now .halt 8).each [9, 8, 7, 6, 5, 4, 3, 2]
      (fun d pd => d.ownOff now pd) := by
  have hstage : d.stage = .aware := hst
  have hone : ofBits ((onBits 8 1).filter d.itemOn) = 1 := rfl
  simp only [doSelfTest, hstage, hload, hone]
  rfl

theorem doNvmLoad_again {d : Dev} {now : Nat} (hst : d.boot.stage = .aware) (hload : d.boot.loaded = false)
    (hfirst : d.boot.firstLoad = true) : d.doNvmLoad now = (d.nvmPick.loadReq now).modBoot (fun b => { b with loaded := true }) := by
  have hstage : d.stage = .aware := hst
  have hpick : d.nvmPick.boot.firstLoad = true := by
    unfold nvmPick modBoot
    dsimp only
    split <;> exact hfirst
  simp [doNvmLoad, hstage, hload, hpick]

end Dev

/-- Settles O43. -/
theorem stagesChangeAndAreRecorded : Obligations.StagesChangeAndAreRecorded := by
  unfold Obligations.StagesChangeAndAreRecorded
  refine ⟨fun s => ⟨fun hst hpor htsd => ⟨?_, ?_⟩, fun hst hload => ⟨?_, ?_⟩, fun hwarm => ⟨?_, ?_⟩, fun harm hpor => ?_,
    fun hst hload hfirst => ?_⟩, fun d now why st => ?_⟩
  · exact next_withDev (Dev.doSafeEntry_passed hst hpor htsd)
  · exact next_withDev (Dev.doSafeEntry_failed s.dev s.now)
  · exact next_withDev (Dev.doSelfTest_passed hst hload)
  · refine ⟨_, next_withDev (Dev.doSelfTest_item0 hst hload), rfl, rfl, rfl, ?_, ?_, ?_⟩ <;>
      rw [Dev.boot_each_ownOff, Dev.stage_setStage]
    rfl
  · exact next_withDev (if_neg (by simp [hwarm]))
  · exact Dev.stage_enterAware _ _ _
  · exact next_withDev (if_neg (by simp [harm, hpor]))
  · exact next_withDev (Dev.doNvmLoad_again hst hload hfirst)
  · obtain ⟨q, b, c, p, v, h, hlocked⟩ := Dev.setStage_frame d now st why
    dsimp only
    rw [h]
    exact ⟨rfl, rfl, rfl, rfl, rfl, rfl, rfl, rfl, hlocked⟩

namespace Dev

/-- Latching a cause (R13, R378): Hull's record of it, its event, and what the pins' change triggers. -/
theorem latchBit_frame (d : Dev) (now n ts : Nat) :
    ∃ q b c, d.latchBit now n ts = { d with
        hull := { d.hull with
          cause := setBit d.hull.cause n true
          first := if d.hull.cause = 0 then 2 ^ 31 + n else d.hull.first
          ts := if d.hull.cause = 0 then ts else d.hull.ts }
        pages := q, bus := b, cap := c } ∧
      (d.pageOn 2 = true → bit (tget {} q 2).raw n = true) := by
  have hdo : d.latchBit now n ts = (({ d with hull := { d.hull with
      cause := setBit d.hull.cause n true
      first := if d.hull.cause = 0 then 2 ^ 31 + n else d.hull.first
      ts := if d.hull.cause = 0 then ts else d.hull.ts } } : Dev).raiseLog ts 2 n).pinTrig d now := by
    unfold latchBit
    by_cases hz : d.hull.cause = 0
    · simp only [if_pos hz]
      rfl
    · simp only [if_neg hz]
      rfl
  obtain ⟨q, b, hraise, hraw⟩ := raise_sets ({ d with hull := { d.hull with
    cause := setBit d.hull.cause n true
    first := if d.hull.cause = 0 then 2 ^ 31 + n else d.hull.first
    ts := if d.hull.cause = 0 then ts else d.hull.ts } } : Dev) 2 n
  rw [hdo, raiseLog, logEv, hraise]
  obtain ⟨q', b', c', h, -, hpg⟩ := (CapEvents.logEntry _ _).trans (CapEvents.pinTrig _ d now)
  rw [h]
  refine ⟨q', b', c', rfl, fun hon => ?_⟩
  rw [hpg 2 (by decide)]
  exact hraw hon

/-- The hold a unit takes where one is placed: a leg is never held in BYPASS (R29). -/
def heldAs (u : Nat) (h : Hold) : Hold := if isLeg u && h == .bypass then .off else h

/-- A hold as severe stays (R375). -/
theorem placeRaw_kept {d : Dev} {now u : Nat} {h : Hold} (hk : (heldAs u h).rank ≤ (d.holdOf u).rank) :
    d.placeRaw now u h = d := if_pos hk

/-- A more severe one is taken, and the unit's safe state follows (R29, R103). -/
theorem placeRaw_taken {d : Dev} (now : Nat) {u : Nat} {h : Hold} (hk : ¬(heldAs u h).rank ≤ (d.holdOf u).rank) :
    UnitActs (d.modHull (fun x => { x with hold := tset Hold.none x.hold u (heldAs u h) })) (d.placeRaw now u h) := by
  rw [show d.placeRaw now u h = _ from if_neg hk]
  exact (UnitActs.raiseLog _ now 2 15 u 0 0 0).trans (UnitActs.safeChange _ now u _)

section
variable {d : Dev} {now u code ts : Nat}

theorem nodeFault_leg (h : 48 ≤ u) : d.nodeFault now u code ts = (d.faultDecide now u code ts 0).place now u .off :=
  if_pos (by simp [isLeg, h])

theorem nodeFault_cell (h : u < 48) : d.nodeFault now u code ts =
    (match (d.faultDecide now u code ts 0).strOf u with
     | none => (d.faultDecide now u code ts 0).place now u (if (d.faultDecide now u code ts 0).profC then .off else .bypass)
     | some s =>
      if (d.faultDecide now u code ts 0).profC then (d.faultDecide now u code ts 0).exhaust now s
      else
        let d := (d.faultDecide now u code ts 0).place now u (if (d.faultDecide now u code ts 0).profC then .off else .bypass)
        if d.flag 0 0x60 0 then (d.each (d.strCells s) (fun d k => d.faultPlace now k .off)).svcCheck now s else d) := by
  exact if_neg (by simp [isLeg, h])

end
end Dev

/-- Settles O45. -/
theorem hullDecisionsPlaceHoldsAndCauses : Obligations.HullDecisionsPlaceHoldsAndCauses := by
  unfold Obligations.HullDecisionsPlaceHoldsAndCauses
  refine ⟨fun d now n ts => ?_, fun d now u h => ?_, fun d now u code ts => ⟨fun hleg => ?_, fun hcell hstr => ?_,
    fun str hcell hstr hprof => ?_, fun str hcell hstr hprof hact => ?_⟩⟩
  · obtain ⟨q, b, c, h, hraw⟩ := Dev.latchBit_frame d now n ts
    dsimp only
    rw [h]
    exact ⟨bit_setBit_true _ n, fun m hm => bit_setBit_true_ne hm, fun hz => ⟨if_pos hz, if_pos hz⟩,
      fun hz => ⟨if_neg hz, if_neg hz⟩, hraw, rfl, rfl, rfl⟩
  · dsimp only
    by_cases hk : (Dev.heldAs u h).rank ≤ (d.holdOf u).rank
    · rw [Dev.placeRaw_kept hk]
      exact ⟨(if_pos hk).symm, fun _ _ => rfl, rfl, rfl, rfl⟩
    · obtain ⟨_, _, _, _, _, _, _, _, hp⟩ := Dev.placeRaw_taken now hk
      rw [hp]
      exact ⟨(tget_tset_same ..).trans (if_neg hk).symm, fun x hx => tget_tset_ne _ _ _ _ _ _ hx, rfl, rfl, rfl⟩
  · exact Dev.nodeFault_leg hleg
  · rw [Dev.nodeFault_cell hcell, hstr]
  · rw [Dev.nodeFault_cell hcell, hstr]
    exact if_pos hprof
  · rw [Dev.nodeFault_cell hcell, hstr]
    refine (if_neg (by simp [hprof])).trans ?_
    rw [hprof]
    exact if_neg (by simp [hact])

end Sys2Proof.Machine
end

section
/-! Commands that move data, time-sets, calibrations, the NVM and Hull's own events (R50, R217, R280, R317, R381 to R387, R414, R415). -/

namespace Sys2Proof.Machine
namespace Dev

section
variable (d : Dev) (now : Nat)

theorem secsValid_offsetStep (delta : Int) (ev : Bool) : (d.offsetStep now delta ev).locus.secsValid = d.locus.secsValid := by
  obtain ⟨q, b, ph, c, h⟩ := offsetStep_frame d now delta ev
  rw [h]

theorem secsValid_locusGo (st : LocusState) : (d.locusGo now st).locus.secsValid = d.locus.secsValid := by
  obtain ⟨tq, q, b, ph, h, -⟩ := locusGo_frame d now st
  rw [h]
  exact enteredLocus_secsValid now st d.locus

theorem secsValid_retq : (d.retq now).locus.secsValid = d.locus.secsValid := by
  obtain ⟨q, b, ph, h⟩ := retq_frame d now
  rw [h]

theorem secsValid_ite {c : Prop} [Decidable c] {a b : Dev} (ha : a.locus.secsValid = true) (hb : b.locus.secsValid = true) :
    (if c then a else b).locus.secsValid = true := by
  split
  · exact ha
  · exact hb

/-- A time-set makes the seconds valid, whatever the mode (R50). -/
theorem secsValid_timeSet (ref tai err : Nat) : (d.timeSet now ref tai err).locus.secsValid = true := by
  unfold timeSet
  dsimp only
  refine secsValid_ite (secsValid_ite (secsValid_offsetStep ..) ((secsValid_locusGo ..).trans (secsValid_offsetStep ..)))
    (secsValid_ite (secsValid_ite ?_ ((secsValid_locusGo ..).trans ?_)) ((secsValid_retq ..).trans (secsValid_offsetStep ..)))
  · exact secsValid_ite rfl (secsValid_offsetStep ..)
  · exact secsValid_ite rfl (secsValid_offsetStep ..)

end

section
variable {d : Dev} {now n : Nat} {sl : Slot}

/-- A time-set that nothing refuses is applied and ends DONE (R50). -/
theorem doTimeSet_done (hnext : d.nextCmd 0x03 = some (n, sl)) (h2 : d.src ≠ 2) (h3 : d.src ≠ 3) (href : argLE sl 0 8 ≤ now)
    (hrec : now ≤ argLE sl 0 8 + 1000000000) (herr : argLE sl 16 4 ≠ 0) (hpps : d.src = 1 → argLE sl 16 4 < 500000000) :
    d.doTimeSet now = ((d.beginCmd n).timeSet now (argLE sl 0 8) (argLE sl 8 8) (argLE sl 16 4)).endCmd now n 0 := by
  have hbegun : (d.beginCmd n).src = d.src := rfl
  have hin : ¬((decide (now < argLE sl 0 8) || decide (argLE sl 0 8 + 1000000000 < now)) = true) := by simp; omega
  have hfit : ¬((decide (argLE sl 16 4 = 0) || (decide (d.src = 1) && decide (500000000 ≤ argLE sl 16 4))) = true) := by
    simpa [herr] using hpps
  simp only [doTimeSet, hnext, hbegun]
  rw [if_neg hin, if_neg hfit, if_neg (by simp [h2, h3])]
  rfl

/-- A calibration begins in READY where none runs (R414). -/
theorem doCalibrate_begins (hnext : d.nextCmd 0x04 = some (n, sl)) (hlo : 1 ≤ argLE sl 0 1) (hhi : argLE sl 0 1 ≤ 3)
    (hst : d.boot.stage = .ready) (hnone : d.boot.calib = none) :
    d.doCalibrate now = (d.beginCmd n).modBoot (fun b => { b with calib := some (argLE sl 0 1, n) }) := by
  have hready : ¬(((d.beginCmd n).stage != .ready) = true) := by
    change ¬((d.boot.stage != .ready) = true)
    simp [hst]
  have hfree : ¬((d.beginCmd n).boot.calib.isSome = true) := by
    change ¬(d.boot.calib.isSome = true)
    simp [hnone]
  simp only [doCalibrate, hnext]
  rw [if_neg (by simp; omega), if_neg hready, if_neg hfree]

/-- A calibration ends DONE within Table 18.9, HW_FAULT outside it (R414, R445). -/
theorem doCalEnd_of_running {t : Nat} (res : List Int) (h : d.boot.calib = some (t, n)) :
    d.doCalEnd now t res =
      if calOk t res then ((d.modBoot (fun b => { b with calib := none })).modBoot (fun b =>
        { b with calRes := tset [] b.calRes t res })).endCmd now n 0
      else (d.modBoot (fun b => { b with calib := none })).endCmd now n 0x20 := by
  simp only [doCalEnd, h]
  rw [if_neg (by simp)]
  rfl

theorem doCalTimeout_of_running {t : Nat} (h : d.boot.calib = some (t, n)) :
    d.doCalTimeout now = (d.modBoot (fun b => { b with calib := none })).endCmd now n 0x21 := by
  simp only [doCalTimeout, h]
  rfl

end
end Dev

/-- Settles O37. -/
theorem timeSetAndCalibrateAct : Obligations.TimeSetAndCalibrateAct := by
  unfold Obligations.TimeSetAndCalibrateAct
  intro n tgt sl res s
  refine ⟨fun hnext h2 h3 href hrec herr hpps => ⟨?_, Dev.secsValid_timeSet ..⟩, fun hnext hlo hhi hst hnone => ?_,
    fun hrun => ⟨fun hok => ?_, fun hbad => ?_, ?_⟩⟩
  · exact next_withDev (Dev.doTimeSet_done hnext h2 h3 href hrec herr hpps)
  · exact next_withDev (Dev.doCalibrate_begins hnext hlo hhi hst hnone)
  · exact next_withDev ((Dev.doCalEnd_of_running res hrun).trans (if_pos hok))
  · exact next_withDev ((Dev.doCalEnd_of_running res hrun).trans (if_neg (by simp [hbad])))
  · exact next_withDev (Dev.doCalTimeout_of_running hrun)

namespace Dev
section
variable {d : Dev} {now n : Nat} {sl : Slot}

/-- A context load that nothing refuses reads its data from host memory (R217). -/
theorem doCtxLoad_begins (hbm : d.bus.busMaster = true) (hnext : d.nextCmd 0x10 = some (n, sl)) (hlo : 1 ≤ argLE sl 0 1)
    (hhi : argLE sl 0 1 ≤ 63) (hcnt : argLE sl 2 1 ≠ 0) (hsrc : argLE sl 3 1 = 0) (haddr : argLE sl 8 8 % 2 = 0)
    (hlen : argLE sl 1 1 + argLE sl 2 1 ≤ 64) (hdom : d.domOn 2 = true) (hearly : sl.early ≠ 1)
    (hload : (d.cx (argLE sl 0 1)).load = none) (hst : (d.cx (argLE sl 0 1)).st ≠ .fault) :
    d.doCtxLoad now = (d.beginCmd n).updCtx (argLE sl 0 1) (fun x => { x with load := some (n, false), loadVals := [] }) := by
  have hon : (d.beginCmd n).domOn 2 = true := hdom
  have hfree : ((d.beginCmd n).cx (argLE sl 0 1)).load = none := hload
  have hrun : ((d.beginCmd n).cx (argLE sl 0 1)).st ≠ .fault := hst
  have hmaster : (d.beginCmd n).bus.busMaster = true := hbm
  simp only [doCtxLoad, hnext, hsrc]
  rw [if_neg (by simp; omega), if_neg hcnt, if_neg (by omega), if_neg (by omega), if_neg (by omega), if_neg (by simp),
    if_neg (by simp [hon, hearly]), if_neg (by simp [hfree]), if_neg (by simpa using hrun), if_neg (by simp [hmaster])]

/-- A bank load that nothing refuses is under way (R280). -/
theorem doBankLoad_begins (hbm : d.bus.busMaster = true) (hnext : d.nextCmd 0x11 = some (n, sl)) (hb : argLE sl 0 1 ≤ 7)
    (htaps : 1 ≤ argLE sl 2 2) (htaps' : argLE sl 2 2 ≤ 384) (hrf : argLE sl 4 1 = 1 ∨ argLE sl 4 1 = 2 ∨ argLE sl 4 1 = 4)
    (hgd : argLE sl 6 2 ≤ 2 * (argLE sl 2 2 - 1)) (hsrc : argLE sl 8 1 = 0) (haddr : argLE sl 16 8 % 4 = 0) (hdom : d.domOn 5 = true)
    (hused : ∀ k < 16, (d.beginCmd n).bankUsed (argLE sl 0 1) k = false) (hfree : tget none d.prism.loading (argLE sl 0 1) = none) :
    d.doBankLoad now = (d.beginCmd n).modPrism (fun p =>
      { p with loading := tset none p.loading (argLE sl 0 1) (some (n, argLE sl 2 2, argLE sl 4 1, argLE sl 6 2)) }) := by
  have hon : (d.beginCmd n).domOn 5 = true := hdom
  have hnone : tget none (d.beginCmd n).prism.loading (argLE sl 0 1) = none := hfree
  have hmaster : (d.beginCmd n).bus.busMaster = true := hbm
  have hunused : (List.range 16).any ((d.beginCmd n).bankUsed (argLE sl 0 1)) = false := by simpa using hused
  simp only [doBankLoad, hnext, hsrc]
  rw [if_neg (by omega), if_neg (by simp; omega), if_neg (by simpa [or_iff_not_imp_left] using hrf), if_neg (by omega), if_neg (by omega),
    if_neg (by omega), if_neg (by simp), if_neg (by simp [hon, hunused]), if_neg (by simp [hnone]), if_neg (by simp [hmaster])]

/-- A store write that nothing refuses waits for its data (R318). -/
theorem doStoreWrite_begins (hbm : d.bus.busMaster = true) (hnext : d.nextCmd 0x19 = some (n, sl)) (hoff : argLE sl 0 4 % 4 = 0)
    (hlen : argLE sl 4 4 ≠ 0) (haddr : argLE sl 8 8 % 4 = 0) (hfit : argLE sl 0 4 + argLE sl 4 4 ≤ d.partBytes 4)
    (hdom : d.domOn 7 = true) (hpart : d.partEn 4 = true) (huse : (d.beginCmd n).storeInUse = false) :
    d.doStoreWrite now = (d.beginCmd n).modCap (fun c =>
      { c with storeWr := c.storeWr ++ [(n, argLE sl 0 4, argLE sl 4 4)] }) := by
  have hon : (d.beginCmd n).domOn 7 = true := hdom
  have hen : (d.beginCmd n).partEn 4 = true := hpart
  have hmaster : (d.beginCmd n).bus.busMaster = true := hbm
  have hroom : ¬((d.beginCmd n).partBytes 4 < argLE sl 0 4 + argLE sl 4 4) := not_lt.mpr hfit
  simp only [doStoreWrite, hnext]
  rw [if_neg (by simp [hoff]), if_neg hlen, if_neg (by simp [haddr]), if_neg (by simpa [hon] using hroom),
    if_neg (by simp [hon, hen]), if_neg (by simp [huse]), if_neg (by simp [hmaster])]

/-- A readout that nothing refuses joins those under way (R317). -/
theorem doCaptureRead_begins (hbm : d.bus.busMaster = true) (hnext : d.nextCmd 0x18 = some (n, sl))
    (hok : (d.beginCmd n).crBad sl = none) (hflags : argLE sl 1 1 = 0) (hlog : argLE sl 0 1 = 2 → argLE sl 20 4 % 32 = 0)
    (hdom : d.domOn 7 = true) (hreads : d.cap.reads.length < 4) :
    d.doCaptureRead now = (d.beginCmd n).modCap (fun c => { c with reads := c.reads ++
      [⟨n, argLE sl 0 1, argLE sl 8 8, argLE sl 16 4, argLE sl 20 4, argLE sl 24 8,
        min (argLE sl 20 4) (d.crEnd sl - argLE sl 16 4), decide (d.crEnd sl - argLE sl 16 4 < argLE sl 20 4), false⟩] }) := by
  have hon : (d.beginCmd n).domOn 7 = true := hdom
  have hmaster : (d.beginCmd n).bus.busMaster = true := hbm
  have hroom : ¬(4 ≤ (d.beginCmd n).cap.reads.length) := not_le.mpr hreads
  have hkeep : ¬(crFlags sl = 1) := by simp [crFlags, hflags]
  have hbytes : ¬((decide (crPart sl = 2) && crLen sl % 32 != 0) = true) := by
    rw [Bool.and_eq_true, decide_eq_true_eq]
    rintro ⟨hpart, hodd⟩
    simp [crLen, hlog hpart] at hodd
  simp only [doCaptureRead, hnext, hok, hkeep, if_false, decide_false]
  rw [if_neg hbytes, if_neg (by simp [hon]), if_neg hroom, if_neg (by simp [hmaster])]
  rfl

/-- A swap to another compatible ROM response within the capacity begins the cross-fade (R285, R287); one to the response the
channel has ends at once. -/
theorem doRespSwap_steady {k t len : Nat} (hnext : d.nextCmd 0x12 = some (n, sl)) (hk : argLE sl 0 1 = k) (ht : argLE sl 1 1 = t)
    (hlen : argLE sl 2 2 = len) (hk15 : k ≤ 15) (haux : d.chAux k = false) (ht15 : t ≤ 15)
    (hcompat : d.compat false (d.respNow k) t = true) (hlo : 1 ≤ len) (hhi : len ≤ 4096) (hdom : d.domOn 5 = true)
    (hrun : (d.chan k).st = .running) (hfade : (d.chan k).fade = none) :
    d.doRespSwap now =
      if t = (d.chan k).now then (d.beginCmd n).endCmd now n 0
      else if prismCap < d.demand + d.demand1 k then (d.beginCmd n).endCmd now n stBusy
      else (d.beginCmd n).updChan k (fun c => { c with fade := some { frm := c.now, dst := t, len := len, n := 0, slot := n } }) := by
  have haux' : (d.beginCmd n).chAux k = false := haux
  have hcompat' : (d.beginCmd n).compat false ((d.beginCmd n).respNow k) t = true := hcompat
  have hon : (d.beginCmd n).domOn 5 = true := hdom
  have hrun' : ((d.beginCmd n).chan k).st = .running := hrun
  have hfade' : ((d.beginCmd n).chan k).fade = none := hfade
  simp only [doRespSwap, hnext, hk, ht, hlen, haux', hfade']
  rw [if_neg (by omega), if_neg (by simp [hcompat']; omega), if_neg (by simp; omega), if_neg (by simp [hon, hrun'])]
  rfl

end
end Dev

/-- Settles O38. -/
theorem transferAndSwapCommandsBegin : Obligations.TransferAndSwapCommandsBegin := by
  unfold Obligations.TransferAndSwapCommandsBegin
  refine ⟨fun n sl s hbm => ⟨fun hnext hlo hhi hcnt hsrc haddr hlen hdom hearly hload hst => ?_,
      fun hnext hb htaps htaps' hrf hgd hsrc haddr hdom hused hfree => ?_,
      fun hnext hoff hlen haddr hfit hdom hpart huse => ?_, fun hnext hok hflags hlog hdom hreads => ?_⟩,
    fun n k t len sl s hnext hk ht hlen hk15 haux ht15 hcompat hlo hhi hdom hrun hfade => ⟨fun hne hcap => ?_, fun heq => ?_⟩⟩
  · exact next_withDev (Dev.doCtxLoad_begins hbm hnext hlo hhi hcnt hsrc haddr hlen hdom hearly hload hst)
  · exact next_withDev (Dev.doBankLoad_begins hbm hnext hb htaps htaps' hrf hgd hsrc haddr hdom hused hfree)
  · exact next_withDev (Dev.doStoreWrite_begins hbm hnext hoff hlen haddr hfit hdom hpart huse)
  · exact next_withDev (Dev.doCaptureRead_begins hbm hnext hok hflags hlog hdom hreads)
  · exact next_withDev ((Dev.doRespSwap_steady hnext hk ht hlen hk15 haux ht15 hcompat hlo hhi hdom hrun hfade).trans
      ((if_neg hne).trans (if_neg (not_lt.mpr hcap))))
  · exact next_withDev ((Dev.doRespSwap_steady hnext hk ht hlen hk15 haux ht15 hcompat hlo hhi hdom hrun hfade).trans (if_pos heq))

end Sys2Proof.Machine
end

section
/-! The ends of transfers, the NVM, Hull's own events and the PCIe link (R217, R280, R317, R318, R381 to R387, R399, R415). -/

namespace Sys2Proof.Machine
namespace Dev
section
variable {d : Dev} {now n : Nat} {sl : Slot}

/-- Coefficients that were read from host memory wait for the commit (R217). -/
theorem doCtxLoadRead_ok {c corr : Nat} {ws : List Nat} (hslot : d.slot n = some sl) (hload : (d.cx c).load = some (n, false))
    (hsrc : argLE sl 3 1 = 0) (hlen : ws.length = argLE sl 2 1) :
    d.doCtxLoadRead now c (.ok ws corr) = d.updCtx c (fun y => { y with
      load := some (n, true), loadVals := ws.zipIdx.map (fun p => (argLE sl 1 1 + p.2, sx 16 p.1)) }) := by
  simp only [doCtxLoadRead, hload, hslot, hsrc]
  rw [if_neg (by simpa using hlen)]
  rfl

/-- A bank whose words came from host memory takes them, or its command ends BAD_ARG where one breaks the sign rule (R280). -/
theorem doBankLoadEnd_ok {b taps rf gd2 corr : Nat} {ws : List Nat} (hslot : d.slot n = some sl)
    (hload : tget none d.prism.loading b = some (n, taps, rf, gd2)) (hsrc : argLE sl 8 1 = 0) (hlen : ws.length = taps) :
    d.doBankLoadEnd now b (.ok ws corr) =
      if ws.any (fun w => decide (w / 2 ^ 23 ≠ 0 ∧ w / 2 ^ 23 ≠ 2 ^ 9 - 1)) then
        (d.modPrism (fun p => { p with loading := tset none p.loading b none })).endCmd now n stBadArg
      else ((d.modPrism (fun p => { p with loading := tset none p.loading b none })).modPrism (fun p => { p with
        bank := tset {} p.bank b ⟨true, taps, rf, gd2, ws.map (sx 24)⟩ })).endCmd now n stDone := by
  simp only [doBankLoadEnd, hload, hslot, Option.getD_some, hsrc]
  exact if_neg (by simpa using hlen)

end
end Dev

/-- Settles O39. -/
theorem transfersEnd : Obligations.TransfersEnd := by
  unfold Obligations.TransfersEnd
  intro n c b slot corr sl ws s hslot
  refine ⟨fun hload hsrc hlen => ?_, fun taps rf gd2 hload hsrc hlen => ⟨fun hgood => ?_, fun hbad => ?_⟩, fun r hfind => ?_,
    fun off len rest hwr => ?_⟩
  · exact next_withDev (Dev.doCtxLoadRead_ok hslot hload hsrc hlen)
  · refine next_withDev ((Dev.doBankLoadEnd_ok hslot hload hsrc hlen).trans (if_neg ?_))
    simp only [List.any_eq_true, decide_eq_true_eq, not_exists, not_and, not_not]
    exact fun w hw h0 => (hgood w hw).resolve_left h0
  · refine next_withDev ((Dev.doBankLoadEnd_ok hslot hload hsrc hlen).trans (if_pos ?_))
    simpa only [List.any_eq_true, decide_eq_true_eq] using hbad
  · refine next_withDev ?_
    simp only [Dev.doCaptureReadEnd, hfind]
    rfl
  · refine next_withDev ?_
    simp only [Dev.doStoreWriteEnd, hwr]
    rfl

namespace Dev
section
variable {d : Dev} {now n : Nat} {sl : Slot}

/-- A CMD_NVM_WRITE unmarks the slot not loaded last, and then writes it where nothing refuses it (R415). -/
theorem doNvmWrite_begins (hnext : d.nextCmd 0x20 = some (n, sl)) (hok : (d.beginCmd n).nvmRefused sl = none)
    (hbm : d.bus.busMaster = true) :
    d.doNvmWrite now = ((d.beginCmd n).setSlot (1 - d.boot.nvmSlot) none).modNvm (fun v =>
      { v with writing := some (1 - d.boot.nvmSlot, n), shut := !d.therm.nvmOk }) := by
  have hmaster : ((d.beginCmd n).setSlot (d.beginCmd n).nvmNext none).bus.busMaster = true := hbm
  simp only [doNvmWrite, hnext, hok]
  rw [if_neg (by simp [hmaster])]
  rfl

theorem doNvmWrite_refused {st r : Nat} (hnext : d.nextCmd 0x20 = some (n, sl)) (hno : (d.beginCmd n).nvmRefused sl = some (st, r)) :
    d.doNvmWrite now = (((d.beginCmd n).setSlot (1 - d.boot.nvmSlot) none).endCmd now n st r).raise 0x3C 1 := by
  simp only [doNvmWrite, hnext, hno]
  rfl

theorem saveDue_raise (p k : Nat) : (d.raise p k).nvm = d.nvm := by
  obtain ⟨q, b, h⟩ := raise_eq d p k
  rw [h]

theorem nvm_endCmd (st res : Nat) : (d.endCmd now n st res).nvm = d.nvm := by
  obtain ⟨b, h⟩ := endCmd_frame d now n st res
  rw [h]

theorem saveDue_setSlot (i : Nat) (v : Option (Nat × Image)) : (d.setSlot i v).nvm.saveDue = d.nvm.saveDue := by
  unfold setSlot
  dsimp only [modNvm]
  split <;> rfl

theorem saveDue_wear (i : Nat) : (d.wear i).nvm.saveDue = d.nvm.saveDue := by
  unfold wear
  dsimp only [modNvm]
  split <;> rfl

/-- No save runs behind a write where none waits (R430). -/
theorem save_not_due {e d' : Dev} (h : d.nvm.saveDue = false) (he : e.nvm.saveDue = d.nvm.saveDue) :
    (if (e.raise 0x3C 1).nvm.saveDue then d' else e.raise 0x3C 1) = e.raise 0x3C 1 := by
  rw [if_neg (by simp [saveDue_raise, he, h])]

/-- A write during which the gate closed ends REFUSED_TEMP, whatever its data (R360). -/
theorem doWriteEnd_shut {slot : Nat} (hwr : d.nvm.writing = some (slot, n)) (hdue : d.nvm.saveDue = false)
    (hshut : d.nvm.shut = true) (r : NvmEnd) :
    d.doWriteEnd now r =
      (((d.modNvm (fun v => { v with writing := none, shut := false })).wear slot).endCmd now n 0x14).raise 0x3C 1 := by
  have hend : d.writeShut r = .gateClosed := if_pos hshut
  simp only [doWriteEnd, hwr, hend]
  rw [if_neg (by simp [hshut])]
  refine save_not_due hdue ?_
  rw [nvm_endCmd, saveDue_wear]
  rfl

theorem doWriteEnd_open (hwr : ∃ slot, d.nvm.writing = some (slot, n)) (hshut : d.nvm.shut = false) :
    d.doWriteEnd now .gateClosed = d := by
  obtain ⟨slot, hwr⟩ := hwr
  simp only [doWriteEnd, hwr]
  exact if_pos (by simp [hshut])

/-- A write that verified marks its slot with a new generation (R415, R429). -/
theorem doWriteEnd_done {slot : Nat} (hwr : d.nvm.writing = some (slot, n)) (hdue : d.nvm.saveDue = false)
    (hshut : d.nvm.shut = false) (img : Image) :
    d.doWriteEnd now (.done img) =
      ((((d.modNvm (fun v => { v with writing := none, shut := false })).setSlot slot
        (some (max (nvmGen d.nvm.a) (nvmGen d.nvm.b) + 1, img))).wear slot).endCmd now n 0 slot).raise 0x3C 1 := by
  have hend : d.writeShut (.done img) = .done img := if_neg (by simp [hshut])
  simp only [doWriteEnd, hwr, hend]
  rw [if_neg (by simp)]
  refine save_not_due hdue ?_
  rw [nvm_endCmd, saveDue_wear, saveDue_setSlot]
  rfl

/-- A failed CRC leaves the slot unmarked (R415). -/
theorem doWriteEnd_crcBad {slot : Nat} (hwr : d.nvm.writing = some (slot, n)) (hdue : d.nvm.saveDue = false)
    (hshut : d.nvm.shut = false) :
    d.doWriteEnd now .crcBad =
      ((d.modNvm (fun v => { v with writing := none, shut := false })).endCmd now n 0x20).raise 0x3C 1 := by
  have hend : d.writeShut .crcBad = .crcBad := if_neg (by simp [hshut])
  simp only [doWriteEnd, hwr, hend]
  rw [if_neg (by simp)]
  refine save_not_due hdue ?_
  rw [nvm_endCmd]
  rfl

/-- A save begins where no write runs and the gate is open (R250, R430). -/
theorem doSave_begins (hdom : d.domOn 9 = true) (haware : d.awareUp = true) (hsaving : d.nvm.saving = false)
    (hwr : d.nvm.writing = none) (hgate : d.therm.nvmOk = true) :
    d.doSave = (d.modNvm (fun v => { v with saveDue := false })).modNvm (fun v => { v with saving := true }) := by
  unfold doSave
  rw [if_neg (by simp [hdom, haware, hsaving]), if_neg (by simp [hwr])]
  exact if_pos hgate

end
end Dev

/-- Settles O40. -/
theorem nvmWritesAndSavesAct : Obligations.NvmWritesAndSavesAct := by
  unfold Obligations.NvmWritesAndSavesAct
  intro n slot sl img s
  refine ⟨fun hnext hok hbm => ?_, fun st r hnext hno => ?_, fun hwr hdue hshut r => ?_, fun hwr hshut => ?_,
    fun hwr hdue hshut => ⟨?_, ?_⟩, fun hdom haware hsaving hwr hgate => ?_, fun hsaving => ⟨?_, ?_⟩⟩
  · exact next_withDev (Dev.doNvmWrite_begins hnext hok hbm)
  · exact next_withDev (Dev.doNvmWrite_refused hnext hno)
  · exact next_withDev (Dev.doWriteEnd_shut hwr hdue hshut r)
  · exact next_withDev (Dev.doWriteEnd_open ⟨slot, hwr⟩ hshut)
  · exact next_withDev (Dev.doWriteEnd_done hwr hdue hshut img)
  · exact next_withDev (Dev.doWriteEnd_crcBad hwr hdue hshut)
  · exact next_withDev (Dev.doSave_begins hdom haware hsaving hwr hgate)
  · exact next_withDev (if_neg (by simp [hsaving]))
  · exact next_withDev (if_neg (by simp [hsaving]))

/-- Settles O44. -/
theorem hullEventsAct : Obligations.HullEventsAct := by
  unfold Obligations.HullEventsAct
  intro n s
  refine ⟨fun hlive harmed => ?_, fun hdom hrun hn => ?_, fun hst htime hkick => ?_, fun hidle => ?_,
    fun hsafe hpor => ⟨fun hown => ?_, fun hfree hfollow => ?_⟩, rfl, rfl, rfl⟩
  · exact next_withDev (if_neg (by simp [hlive, harmed]))
  · exact next_withDev (if_neg (by simp [hdom, hrun]; omega))
  · have hdue : (s.dev.stage == .run && s.dev.fld 2 0x64 15 0 != 0 &&
        decide (s.dev.hull.kick + s.dev.fld 2 0x64 15 0 * 1000000 ≤ s.now)) = true := by
      have hrun : s.dev.stage = .run := hst
      simp [hrun, htime, hkick]
    exact next_withDev (if_pos hdue)
  · have hnot : ¬((s.dev.stage == .run && s.dev.fld 2 0x64 15 0 != 0 &&
        decide (s.dev.hull.kick + s.dev.fld 2 0x64 15 0 * 1000000 ≤ s.now)) = true) := by
      rcases hidle with hst | htime
      · have hrun : s.dev.stage ≠ .run := hst
        simp [hrun]
      · simp [htime]
    exact next_withDev (if_neg hnot)
  · refine next_withDev ((if_neg (by simp [hsafe, hpor])).trans (congrArg (fun d : Dev => d.latch s.now 6) (if_pos ?_)))
    rw [Bool.or_eq_true, Bool.not_eq_true']
    exact hown
  · refine next_withDev ((if_neg (by simp [hsafe, hpor])).trans (congrArg (fun d : Dev => d.latch s.now 6) (if_neg ?_)))
    rw [Bool.or_eq_true, Bool.not_eq_true', not_or]
    exact ⟨by simp [hfree], fun h => Bool.noConfusion (hfollow.symm.trans h)⟩

namespace Dev

/-- A round over a list that changes nothing leaves the device. -/
theorem each_id {f : Dev → Nat → Dev} {d : Dev} (h : ∀ k, f d k = d) (l : List Nat) : d.each l f = d := by
  unfold each
  induction l with
  | nil => rfl
  | cons k r ih => exact (congrArg (fun e => List.foldl f e r) (h k)).trans ih

/-- Where no command moves data, nothing fails (R399). -/
theorem xferFail_idle {d : Dev} (now : Nat) (hload : ∀ c, (d.cx c).load = none) (hbank : ∀ b, tget none d.prism.loading b = none)
    (hreads : d.cap.reads = []) (hwr : d.cap.storeWr = []) (hnvm : d.nvm.writing = none) : d.xferFail now = d := by
  unfold xferFail
  rw [each_id (fun c => by simp only [hload c])]
  dsimp only
  rw [each_id (fun b => by simp only [hbank b])]
  simp only [hreads, hwr, List.foldl_nil, hnvm]

end Dev

/-- Settles O19. -/
theorem linkAndPcieResetsChangeOnlyPcieLogic : Obligations.LinkAndPcieResetsChangeOnlyPcieLogic := by
  unfold Obligations.LinkAndPcieResetsChangeOnlyPcieLogic
  refine ⟨fun rate width s hdown hdom hmsix => ⟨fun hr hr' hw hw' => ?_, fun hbad => ?_⟩, fun mask bm s hdom =>
    ⟨fun hload hbank hreads hwr hnvm => ⟨?_, fun hup => ?_⟩, fun hbm => ?_⟩⟩
  · refine next_withDev ((if_neg ?_).trans (congrArg (fun d : Dev => d.raise 8 0) (if_neg ?_)))
    · simp [hdom, hdown, linkOk, hr, hr', hw, hw']
    · simp [hmsix]
  · refine next_withDev (if_pos ?_)
    have hlink : linkOk rate width = false := by
      simp [linkOk]
      omega
    simp [hlink]
  · exact next_withDev ((if_neg (by simp [hdom])).trans (Dev.xferFail_idle s.now hload hbank hreads hwr hnvm))
  · refine next_withDev ((if_pos hup).trans (congrArg (fun d : Dev => d.raise 8 1) ((if_neg ?_).trans
      (Dev.xferFail_idle s.now hload hbank hreads hwr hnvm))))
    simp [show (s.dev.modBus (fun b => { b with linkUp := false, linkWr := 0 })).domOn 1 = true from hdom]
  · refine next_withDev ((if_neg (by simp [hdom])).trans ?_)
    have hstay : (s.dev.bus.busMaster && !bm) = false := by
      rcases hbm with h | h <;> simp [h]
    simp only [hstay, Bool.false_eq_true, if_false, Bool.and_false]

end Sys2Proof.Machine
end

section
/-! The housekeeping round: what its parts leave of the readings it takes (R345). -/

namespace Sys2Proof.Machine
namespace Dev

/-- The number of the round, its supply readings and its core current stand. -/
structure SameReadings (d d' : Dev) : Prop where
  round : d'.therm.round = d.therm.round
  sup : d'.therm.sup = d.therm.sup
  icore : d'.therm.icore = d.therm.icore

namespace SameReadings

theorem ofTherm {d d' : Dev} (h : d'.therm = d.therm) : SameReadings d d' :=
  ⟨congrArg Therm.round h, congrArg Therm.sup h, congrArg Therm.icore h⟩

theorem refl (d : Dev) : SameReadings d d := ofTherm rfl

theorem trans {a b c : Dev} (h : SameReadings a b) (h' : SameReadings b c) : SameReadings a c := by
  obtain ⟨hr, hs, hi⟩ := h
  obtain ⟨hr', hs', hi'⟩ := h'
  exact ⟨hr'.trans hr, hs'.trans hs, hi'.trans hi⟩

/-- A step that leaves the thermal part comes before. -/
theorem after {d e d' : Dev} (h : SameReadings e d') (he : e.therm = d.therm) : SameReadings d d' := trans (ofTherm he) h

theorem ite {d a b : Dev} {c : Prop} [Decidable c] (ha : SameReadings d a) (hb : SameReadings d b) :
    SameReadings d (if c then a else b) := by
  split
  · exact ha
  · exact hb

theorem each {f : Dev → Nat → Dev} (h : ∀ d k, SameReadings d (f d k)) (d : Dev) (l : List Nat) : SameReadings d (d.each l f) :=
  foldl_frame refl trans h l d

theorem ofUnit {d d' : Dev} (h : UnitActs d d') : SameReadings d d' := by
  obtain ⟨_, _, _, _, _, _, _, _, rfl⟩ := h
  exact ofTherm rfl

theorem ofDomain {d d' : Dev} (h : DomainStops d d') : SameReadings d d' := by
  obtain ⟨_, _, _, _, _, _, _, _, _, rfl⟩ := h
  exact ofTherm rfl

theorem ofPorts {d d' : Dev} (h : PortsOnly d d') : SameReadings d d' := by
  obtain ⟨_, rfl⟩ := h
  exact ofTherm rfl

theorem raise (d : Dev) (p n : Nat) : SameReadings d (d.raise p n) := by
  obtain ⟨q, b, h⟩ := raise_eq d p n
  rw [h]
  exact ofTherm rfl

theorem endCmd (d : Dev) (now n st res : Nat) : SameReadings d (d.endCmd now n st res) := ofUnit (UnitActs.endCmd d now n st res)

theorem raiseLog (d : Dev) (ts p n unit detail sub : Nat) (arg : Int) :
    SameReadings d (d.raiseLog ts p n unit detail sub arg) := ofUnit (UnitActs.raiseLog d ts p n unit detail sub arg)

theorem trigger (d : Dev) (now src unit stamp fine : Nat) : SameReadings d (d.trigger now src unit stamp fine) :=
  ofUnit (UnitActs.trigger d now src unit stamp fine)

theorem queueCtl (d : Dev) (u w : Nat) : SameReadings d (d.queueCtl u w) := ofUnit (UnitActs.queueCtl d u w)

theorem latchBit (d : Dev) (now n ts : Nat) : SameReadings d (d.latchBit now n ts) := by
  obtain ⟨q, b, c, h, -⟩ := latchBit_frame d now n ts
  rw [h]
  exact ofTherm rfl

theorem setStage (d : Dev) (now : Nat) (st : Stage) (why : Nat) : SameReadings d (d.setStage now st why) := by
  obtain ⟨q, b, c, p, v, h, -⟩ := setStage_frame d now st why
  rw [h]
  exact ofTherm rfl

/-! Holds and faults. -/

theorem placeRaw (d : Dev) (now u : Nat) (h : Hold) : SameReadings d (d.placeRaw now u h) := by
  by_cases hk : (heldAs u h).rank ≤ (d.holdOf u).rank
  · rw [placeRaw_kept hk]
    exact refl d
  · exact after (ofUnit (placeRaw_taken now hk)) rfl

theorem faultPlace (d : Dev) (now u : Nat) (h : Hold) : SameReadings d (d.faultPlace now u h) :=
  after (placeRaw (d.noteFault now u h) now u h) rfl

theorem faultPlaces (d : Dev) (now : Nat) (l : List Nat) : SameReadings d (d.each l (fun d k => d.faultPlace now k .off)) :=
  each (fun d k => faultPlace d now k .off) d l

theorem exhaust (d : Dev) (now s : Nat) : SameReadings d (d.exhaust now s) := by
  unfold Dev.exhaust
  dsimp only
  refine trans ?_ ((raise _ 0x1E 4).trans (faultPlaces _ now _))
  exact trans (latchBit d now 3 now) (after (ite (raise _ 0x1E 3) (refl _)) rfl)

theorem svcCheck (d : Dev) (now s : Nat) : SameReadings d (d.svcCheck now s) := by
  have hlow : SameReadings d (if decide (d.margin s ≤ 0) && !(d.vs s).low then
      (d.updStr s (fun v => { v with low := decide (d.margin s ≤ 0) })).raise 0x1E 3
      else d.updStr s (fun v => { v with low := decide (d.margin s ≤ 0) })) := ite (after (raise _ 0x1E 3) rfl) (ofTherm rfl)
  exact ite (ite (hlow.trans (exhaust _ now s)) hlow) (refl d)

theorem svcCheckOf (d : Dev) (now u : Nat) : SameReadings d (d.svcCheckOf now u) := by
  unfold Dev.svcCheckOf
  split
  · exact ite (svcCheck d now _) (refl d)
  · exact refl d

theorem place (d : Dev) (now u : Nat) (h : Hold) : SameReadings d (d.place now u h) :=
  (placeRaw d now u h).trans (svcCheckOf _ now u)

theorem faultDecide (d : Dev) (now u code ts cause : Nat) : SameReadings d (d.faultDecide now u code ts cause) := by
  unfold Dev.faultDecide
  dsimp only
  exact after ((ofUnit (UnitActs.preHit _ now u stHwFault)).trans
    ((raiseLog _ ts 0 8 u code 0 0).trans ((latchBit _ now cause ts).trans (trigger _ now 5 u ts 0)))) rfl

theorem nodeFault (d : Dev) (now u code ts cause : Nat) : SameReadings d (d.nodeFault now u code ts cause) := by
  unfold Dev.nodeFault
  refine trans (faultDecide d now u code ts cause) (ite (place _ now u _) ?_)
  dsimp only
  split
  · exact place _ now u _
  · exact ite (exhaust _ now _) ((place _ now u _).trans (ite ((faultPlaces _ now _).trans (svcCheck _ now _)) (refl _)))

/-! The models. -/

theorem cellTrip (d : Dev) (now k n : Nat) (standing : Bool) : SameReadings d (d.cellTrip now k n standing) :=
  trans (ite ((raiseLog d now 0x34 n k 0 0 0).trans (trigger _ now 7 k now 0)) (refl d))
    (ite (nodeFault _ now k 0 now 1) (refl _))

theorem indTrip (d : Dev) (now s : Nat) (standing : Bool) : SameReadings d (d.indTrip now s standing) :=
  trans (ite ((raiseLog d now 0x34 3 s 0 0 0).trans (trigger _ now 7 s now 0)) (refl d))
    (ite ((latchBit _ now 1 now).trans (exhaust _ now s)) (refl _))

theorem meanR (d : Dev) (sum : Rat) (n : Nat) : SameReadings d (d.meanR sum n).2 := by
  unfold Dev.meanR
  split
  · exact ofTherm rfl
  · exact refl d

theorem coilRound (d : Dev) (cs : CoilSet) (c : Coil) (ta : Option Rat) (sub : Bool) :
    SameReadings d (d.coilRound cs c ta sub).2 := by
  unfold Dev.coilRound
  dsimp only
  split
  · cases ta <;> exact refl d
  · exact meanR d c.sumP c.nP

theorem windRound (now : Nat) (d : Dev) (k : Nat) : SameReadings d (Dev.windRound now d k) := by
  unfold Dev.windRound
  refine ite (refl d) ?_
  dsimp only
  refine trans (coilRound d _ _ _ _) (after (trans (ite (raiseLog _ now 0x34 0 k 0 0 0) (refl _)) (ite (cellTrip _ now k 3 _) (refl _))) rfl)

theorem indRound (now : Nat) (d : Dev) (s : Nat) : SameReadings d (Dev.indRound now d s) := by
  unfold Dev.indRound
  refine ite (refl d) ?_
  dsimp only
  refine trans (coilRound d _ _ _ _) (after (trans (ite (raiseLog _ now 0x34 0 s 0 0 0) (refl _)) (ite (indTrip _ now s _) (refl _))) rfl)

theorem capRound (now : Nat) (d : Dev) (k : Nat) : SameReadings d (Dev.capRound now d k) := by
  unfold Dev.capRound
  dsimp only
  split
  · exact refl d
  · exact ofTherm rfl
  · refine trans (meanR d _ _) (trans (meanR _ _ _) (after ((ite (raiseLog _ now 0x34 2 k 0 0 0) (refl _)).trans
      (trans (ite (raiseLog _ now 0x34 6 k 0 0 0) (refl _)) (ite (cellTrip _ now k 5 _) (refl _)))) rfl))

theorem updModel (d : Dev) (k : Nat) (f : MCell → MCell) : SameReadings d (d.updModel k f) := ofTherm rfl
theorem modMod (d : Dev) (f : Model → Model) : SameReadings d (d.modMod f) := ofTherm rfl

theorem coilsOff (d : Dev) : SameReadings d d.coilsOff :=
  (each (fun d k => updModel d k _) d _).trans (each (fun d _ => modMod d _) _ _)

theorem capsOff (d : Dev) : SameReadings d d.capsOff := each (fun d k => updModel d k _) d _

theorem modelRound (d : Dev) (now : Nat) : SameReadings d (d.modelRound now) := by
  have hcoils : SameReadings d (if d.modelOn 0 then (d.each (List.range 48) (Dev.windRound now)).each [0, 1, 2, 3] (Dev.indRound now)
      else d.coilsOff) := ite ((each (windRound now) d _).trans (each (indRound now) _ _)) (coilsOff d)
  exact ite (refl d) (trans hcoils (ite (each (capRound now) _ _) (capsOff _)))

/-! The off-state run and precharges. -/

theorem osSetRes (d : Dev) (k n code : Nat) : SameReadings d (d.osSetRes k n code) :=
  after (ite (after (raise _ 0x35 3) rfl) (ofTherm rfl)) rfl

theorem osKick (d : Dev) (k : Nat) : SameReadings d (d.osKick k) := by
  unfold Dev.osKick
  dsimp only
  split
  · exact ofTherm rfl
  · split
    · exact trans (osSetRes d k 7 _) (ofTherm rfl)
    · exact trans (queueCtl d k _) (ofTherm rfl)

theorem osSerial (d : Dev) (k : Nat) : SameReadings d (d.osSerial k) := after (osKick _ k) rfl

theorem osNextOf (d : Dev) (s : Nat) : SameReadings d (d.osNextOf s) := by
  unfold Dev.osNextOf
  split
  · exact osSerial d _
  · exact refl d

theorem osAdvance (d : Dev) : SameReadings d d.osAdvance :=
  (each (fun d s => ite (refl d) (osNextOf d s)) d _).trans (each osSerial _ _)

theorem osCheck (d : Dev) (now : Nat) : SameReadings d (d.osCheck now) :=
  ite (refl d) (after (trans (osAdvance _) (ite (trans (endCmd _ now _ _ 0) (ofTherm rfl)) (refl _))) rfl)

theorem osRound (d : Dev) (now : Nat) : SameReadings d (d.osRound now) := by
  refine ite (refl d) ((each (fun d k => ite (refl d) ?_) d _).trans (osCheck _ now))
  exact trans (each (fun d i => ite (osSetRes d k _ 8) (refl d)) d _) (ofTherm rfl)

theorem preRound (d : Dev) (now : Nat) : SameReadings d (d.preRound now) :=
  foldl_frame refl trans (fun d p => ite (ofUnit (UnitActs.preEnd d now p _)) (refl d)) _ d

/-! Sensors, sheds and the engine's factors. -/

theorem logEv (d : Dev) (ts page n unit detail sub : Nat) (arg : Int) :
    SameReadings d (d.logEv ts page n unit detail sub arg) := by
  obtain ⟨q, pba, sent, log, buf, seq, lost, off, h, -⟩ := logEv_frame d ts page n unit detail sub arg
  rw [h]
  exact ofTherm rfl

theorem thermEv (d : Dev) (now n i : Nat) (set : Bool) : SameReadings d (d.thermEv now n i set) :=
  (ite (raise d 5 n) (refl d)).trans (logEv _ now 5 n _ _ _ 0)

theorem updSensor (d : Dev) (i : Nat) (f : Sensor → Sensor) : SameReadings d (d.updSensor i f) := ⟨rfl, rfl, rfl⟩

theorem sensCheck (now : Nat) (old : Dev) (all : List Reading) (d : Dev) (x : Reading) :
    SameReadings d (Dev.sensCheck now old all d x) := by
  unfold Dev.sensCheck
  refine ite ⟨rfl, rfl, rfl⟩ ?_
  split
  · exact updSensor d x.i _
  · exact trans (updSensor d x.i _) (ite (thermEv _ now 0 x.i true) (ite (thermEv _ now 1 x.i true) (refl _)))

theorem sensLevel (now n : Nat) (d : Dev) (i : Nat) : SameReadings d (Dev.sensLevel now n d i) := by
  unfold Dev.sensLevel
  refine ite (refl d) ?_
  exact trans (updSensor d i _) (trans (ite (thermEv _ now 3 i _) (refl _)) (ite (thermEv _ now 4 i _) (refl _)))

theorem throttleMark (now : Nat) (d : Dev) (k : Nat) : SameReadings d (Dev.throttleMark now d k) :=
  trans (b := d.modTherm _) ⟨rfl, rfl, rfl⟩ (ite (raiseLog _ now 5 2 k 1 _ 0) (refl _))

theorem dieRound (d : Dev) (now : Nat) : SameReadings d (d.dieRound now) := by
  refine trans (b := d.modTherm _) ⟨rfl, rfl, rfl⟩ (trans (ite (refl _) (ofTherm ?_)) (ite (raiseLog _ now 5 5 255 0 0 0) (refl _)))
  rfl

theorem sensRound (d : Dev) (now n : Nat) (h : HkData) : SameReadings d (d.sensRound now n h) :=
  (foldl_frame refl trans (sensCheck now d _) _ d).trans ((each (sensLevel now n) _ _).trans
    ((each (throttleMark now) _ _).trans (dieRound _ now)))

theorem modLat (d : Dev) (f : Lattice → Lattice) : SameReadings d (d.modLat f) := ofTherm rfl
theorem modPwr (d : Dev) (f : Pwr → Pwr) : SameReadings d (d.modPwr f) := ofTherm rfl
theorem updCtx (d : Dev) (c : Nat) (f : Ctx → Ctx) : SameReadings d (d.updCtx c f) := ofTherm rfl

theorem latRound (d : Dev) (h : HkData) : SameReadings d (d.latRound h) := by
  unfold Dev.latRound
  refine ite (refl d) ?_
  dsimp only
  have htaken : SameReadings d ((d.modLat (fun l => { l with duty := h.duty, peakAll := h.peakAll, peakC0 := h.peakC0 })).each allCtx
      (fun d c => d.updCtx c (fun x => { x with slack := tget 0xFFFF h.slack c }))) :=
    trans (modLat d _) (each (fun d c => updCtx d c _) _ allCtx)
  refine trans htaken ?_
  generalize (d.modLat _).each allCtx _ = e
  refine ite (trans (trans ?_ (modLat _ _)) (raise _ 0x20 5)) (trans ?_ (modLat _ _))
  · exact ite (modLat _ _) (ite (trans (modLat _ _) (raise _ 0x20 4)) (refl _))
  · exact ite (modLat _ _) (ite (trans (modLat _ _) (raise _ 0x20 4)) (refl _))

theorem shedRound (d : Dev) (now n : Nat) : SameReadings d (d.shedRound now n) := by
  unfold Dev.shedRound
  refine ite (refl d) ?_
  split
  · exact refl d
  · next pd _ =>
    refine trans (b := d.modTherm (fun t => { t with shed := setBit t.shed pd true, lastShed := some n })) ⟨rfl, rfl, rfl⟩ (trans ?_
      ((ofDomain (DomainStops.turnOff _ pd)).trans (raiseLog _ now 5 6 pd 0 0 0)))
    refine ite (trans (each (f := fun d p => d.rxClose now p) (fun d p => ofPorts (PortsOnly.rxClose d now p)) _ (List.range 8)) ?_)
      (ofDomain (.ofBlock (BlockStops.abortDomain _ now pd)))
    exact modPwr _ _

/-! The end of the round. -/

theorem retq (d : Dev) (now : Nat) : SameReadings d (d.retq now) := by
  obtain ⟨q, b, ph, h⟩ := retq_frame d now
  rw [h]
  exact ofTherm rfl

theorem trimRound (d : Dev) (now : Nat) : SameReadings d (d.trimRound now) := by
  refine trans (ite (ofTherm ?_) (refl d)) (retq _ now)
  rfl

end SameReadings

theorem setReady_frame (d : Dev) (l : List Nat) (b : Bool) : ∃ q, d.setReady l b = { d with pages := q } := by
  refine foldl_frame (R := fun d d' => ∃ q, d' = { d with pages := q }) (f := fun d p => d.updPage p (fun q => { q with ready := b }))
    (fun _ => ⟨_, rfl⟩) ?_ (fun _ _ => ⟨_, rfl⟩) l d
  rintro _ _ _ ⟨_, rfl⟩ ⟨_, rfl⟩
  exact ⟨_, rfl⟩

/-- The entry to AWARE leaves Hull and the readings (R369, R370). -/
theorem enterAware_hull_therm (d : Dev) (now why : Nat) :
    (d.enterAware now why).hull = d.hull ∧ (d.enterAware now why).therm = d.therm := by
  obtain ⟨q, b, c, p, v, h, -⟩ := setStage_frame d now .aware why
  unfold enterAware
  dsimp only
  rw [h]
  split
  · obtain ⟨q', h'⟩ := setReady_frame (Dev.modBoot _ _) [1] true
    rw [h']
    exact ⟨rfl, rfl⟩
  · obtain ⟨q', h'⟩ := setReady_frame (Dev.modBoot _ _) (basePages.filter (fun p => p != 2)) false
    rw [h']
    obtain ⟨q', h'⟩ := setReady_frame _ [1] true
    rw [h']
    exact ⟨rfl, rfl⟩

theorem supplyRound_readings (d : Dev) (now : Nat) : SameReadings d (d.supplyRound now) := by
  unfold supplyRound
  dsimp only
  exact SameReadings.after (.ite (.ofTherm (enterAware_hull_therm _ now 6).2) (.refl _)) rfl

/-- The cool rounds are counted from the largest die reading of the round (R389). -/
theorem coolRound_readings (d : Dev) (now : Nat) (h : HkData) :
    SameReadings d (d.coolRound now h) ∧ (d.coolRound now h).hull.coolMax = maxI 0 h.die := by
  obtain ⟨e, htherm, hmax, hround⟩ : ∃ e, e.therm = d.therm ∧ e.hull.coolMax = maxI 0 h.die ∧
      (d.coolRound now h = e ∨ d.coolRound now h = (e.raiseLog now 2 14).enterAware now 5) := by
    refine ⟨_, ?_, ?_, ite_eq_or_eq _ _ _⟩
    · rfl
    · rfl
  rcases hround with hround | hround <;> rw [hround]
  · exact ⟨.ofTherm htherm, hmax⟩
  · obtain ⟨hhull, hkept⟩ := enterAware_hull_therm (e.raiseLog now 2 14) now 5
    obtain ⟨q, b, c, hlog⟩ := raiseLog_frame e now 2 14 255 0 0 0
    rw [hlog] at hhull hkept ⊢
    exact ⟨.ofTherm (hkept.trans htherm), (congrArg Hull.coolMax hhull).trans hmax⟩

/-- An event leaves the readings. -/
theorem readings_raised {d e : Dev} {c : Prop} [Decidable c] {p n : Nat} (h : SameReadings d e) :
    SameReadings d (if c then e.raise p n else e) := .ite (h.trans (.raise e p n)) h

/-- The supplies' part of a round shows what was read (R347, R358). -/
theorem supRound_readings (d : Dev) (h : HkData) :
    (d.supRound h).therm.round = d.therm.round ∧ (d.supRound h).therm.sup = h.sup ∧ (d.supRound h).therm.icore = h.icore := by
  obtain ⟨e, he, hround, hsup, hcore⟩ : ∃ e, SameReadings e (d.supRound h) ∧ e.therm.round = d.therm.round ∧ e.therm.sup = h.sup ∧
      e.therm.icore = h.icore := by
    unfold supRound
    dsimp only
    exact ⟨_, readings_raised (readings_raised (readings_raised (readings_raised (.refl _)))), rfl, rfl, rfl⟩
  exact ⟨he.round.trans hround, he.sup.trans hsup, he.icore.trans hcore⟩

/-- A round shows its number, its supply readings, its core current and the largest die reading (R345, R347, R358, R389). -/
theorem doRound_readings {d : Dev} (now n : Nat) (h : HkData) (hst : d.boot.stage ≠ .reset) (hpor : d.boot.por = false) :
    (d.doRound now n h).therm.round = n ∧ (d.doRound now n h).therm.sup = h.sup ∧ (d.doRound now n h).therm.icore = h.icore ∧
      (d.doRound now n h).hull.coolMax = maxI 0 h.die := by
  have hstage : d.stage ≠ .reset := hst
  unfold doRound
  rw [if_neg (by simp [hstage, hpor])]
  obtain ⟨hround, hsup, hcore⟩ := supRound_readings ((d.modTherm (fun t => { t with round := n })).modPwr (fun p => { p with late := h.relock })) h
  generalize (Dev.modPwr _ _).supRound h = e at hround hsup hcore ⊢
  have hsens : SameReadings e (((e.sensRound now n h).latRound h).shedRound now n) :=
    (SameReadings.sensRound e now n h).trans ((SameReadings.latRound _ h).trans (SameReadings.shedRound _ now n))
  have hmodels := hsens.trans ((SameReadings.modelRound _ now).trans ((SameReadings.osRound _ now).trans (SameReadings.preRound _ now)))
  have hend := hmodels.trans ((SameReadings.trimRound _ now).trans (supplyRound_readings _ now))
  obtain ⟨hcool, hmax⟩ := coolRound_readings ((((((((e.sensRound now n h).latRound h).shedRound now n).modelRound now).osRound now).preRound
    now).trimRound now).supplyRound now) now h
  have hall := hend.trans hcool
  exact ⟨hall.round.trans hround, hall.sup.trans hsup, hall.icore.trans hcore, hmax⟩

end Dev

/-- Settles O48. -/
theorem housekeepingRoundIsOneStep : Obligations.HousekeepingRoundIsOneStep := by
  unfold Obligations.HousekeepingRoundIsOneStep
  refine fun n h s => ⟨fun hst => ?_, fun hst hpor => ⟨s.withDev (s.dev.doRound s.now n h), rfl, rfl, rfl, rfl, ?_⟩⟩
  · have hstage : s.dev.stage = .reset := hst
    exact next_withDev (if_pos (by simp [hstage]))
  · exact Dev.doRound_readings s.now n h hst hpor

end Sys2Proof.Machine
end

section
/-! Power domains turning on and off (R362, R403, R416, R421, R425). -/

namespace Sys2Proof.Machine

/-- A key that a filter drops reads the default. -/
theorem tget_filter_out {α : Type} (z : α) (m : Tbl α) (q : Nat → Bool) (j : Nat) (hq : q j = false) :
    tget z (m.filter (fun p => q p.1)) j = z := by
  refine tget_none z _ j (fun p hp h => ?_)
  rw [List.mem_filter, h, hq] at hp
  exact Bool.noConfusion hp.2

namespace Dev

/-- What a domain that starts leaves: power, Hull, the stage and the stored images. -/
structure PowerStands (d d' : Dev) : Prop where
  pwr : d'.pwr = d.pwr
  hull : d'.hull = d.hull
  boot : d'.boot = d.boot
  slotA : d'.nvm.a = d.nvm.a
  slotB : d'.nvm.b = d.nvm.b

namespace PowerStands

theorem refl (d : Dev) : PowerStands d d := ⟨rfl, rfl, rfl, rfl, rfl⟩

theorem trans {a b c : Dev} (h : PowerStands a b) (h' : PowerStands b c) : PowerStands a c :=
  ⟨h'.pwr.trans h.pwr, h'.hull.trans h.hull, h'.boot.trans h.boot, h'.slotA.trans h.slotA, h'.slotB.trans h.slotB⟩

theorem ite {d a b : Dev} {c : Prop} [Decidable c] (ha : PowerStands d a) (hb : PowerStands d b) :
    PowerStands d (if c then a else b) := by
  split
  · exact ha
  · exact hb

end PowerStands

/-- The baselines that the save area gives (R263). -/
def bases (d : Dev) (l : List (Nat × Nat)) : Dev := l.foldl (fun d p => d.wr 0x35 (ptBase (p.1 / 64) (p.1 % 64)) p.2) d

theorem bases_frame (d : Dev) (l : List (Nat × Nat)) : ∃ r, d.bases l = { d with regs := r } := by
  refine foldl_frame (R := fun d d' => ∃ r, d' = { d with regs := r }) (fun _ => ⟨_, rfl⟩) ?_ (fun _ _ => ⟨_, rfl⟩) l d
  rintro _ _ _ ⟨_, rfl⟩ ⟨_, rfl⟩
  exact ⟨_, rfl⟩

theorem ptBase_lt (e : Nat) : ptBase (e / 64) (e % 64) < 4096 := by
  have hi : e % 64 < 64 := Nat.mod_lt _ (by decide)
  have hq : ∀ q, [0x400, 0x4C0, 0x580, 0x640].getD q 0 ≤ 0x640
    | 0 => by decide
    | 1 => by decide
    | 2 => by decide
    | 3 => by decide
    | _ + 4 => Nat.zero_le _
  have := hq (e / 64)
  unfold ptBase
  omega

theorem rd_bases {p o : Nat} (ho : o < 4096) (l : List (Nat × Nat)) (d : Dev)
    (h : p = 0x35 → ∀ e ∈ l, o ≠ ptBase (e.1 / 64) (e.1 % 64)) : (d.bases l).rd p o = d.rd p o := by
  induction l generalizing d with
  | nil => rfl
  | cons x r ih =>
    refine (ih _ (fun hp e he => h hp e (List.mem_cons_of_mem _ he))).trans (rd_wr_ne _ ?_)
    have hb := ptBase_lt x.1
    by_cases hp : p = 0x35
    · have := h hp x (List.mem_cons_self ..)
      omega
    · omega

theorem arrUpdate_frame (d : Dev) : ∃ q b l, d.arrUpdate = { d with pages := q, bus := b, lat := l } := by
  unfold arrUpdate
  dsimp only
  split
  · exact ⟨_, _, _, rfl⟩
  · split
    · exact ⟨_, _, _, rfl⟩
    · obtain ⟨q, b, h⟩ := raise_eq (d.modLat _) 0x20 3
      rw [h]
      exact ⟨_, _, _, rfl⟩

/-- What the blocks of a domain start with: power, Hull and the stage stand, and of the registers only the baselines change (R425). -/
structure BlockStarts (d : Dev) (pd : Nat) (e : Dev) : Prop where
  stands : PowerStands d e
  rd : ∀ p o, o < 4096 → (pd = 9 → p = 0x35 → ∀ x ∈ d.nvm.base, o ≠ ptBase (x.1 / 64) (x.1 % 64)) → e.rd p o = d.rd p o

namespace BlockStarts

theorem ite {d a b : Dev} {pd : Nat} {c : Prop} [Decidable c] (ha : c → BlockStarts d pd a) (hb : BlockStarts d pd b) :
    BlockStarts d pd (if c then a else b) := by
  split
  next h => exact ha h
  · exact hb

theorem ofRegs {d e : Dev} {pd : Nat} (h : PowerStands d e) (hr : e.regs = d.regs) : BlockStarts d pd e :=
  ⟨h, fun p o _ _ => congrArg (fun m => (tget (w32 (rstAt (p * 4096 + o))) m (p * 4096 + o)).toNat) hr⟩

theorem blockReset_saved (d : Dev) : d.blockReset 9 = (Dev.bases ({ d with
    model := { cell := d.nvm.ages.foldl (fun (t : Tbl MCell) (p : Nat × Rat) => tset {} t p.1 { age := p.2 }) [] }
    diag := { est := d.nvm.est, trend := d.nvm.trend } } : Dev) d.nvm.base).modNvm (fun v =>
      { v with refused := 0, done := 0, saveTs := 0 }) := rfl

/-- PD9 starts with the ageing, estimates, trends and baselines of the save area (R250, R263). -/
theorem saved (d : Dev) : BlockStarts d 9 (d.blockReset 9) := by
  refine ⟨?_, fun p o ho hb => rd_bases ho d.nvm.base _ (hb rfl)⟩
  obtain ⟨r, h⟩ := bases_frame ({ d with
    model := { cell := d.nvm.ages.foldl (fun (t : Tbl MCell) (p : Nat × Rat) => tset {} t p.1 { age := p.2 }) [] }
    diag := { est := d.nvm.est, trend := d.nvm.trend } } : Dev) d.nvm.base
  rw [blockReset_saved, h]
  exact ⟨rfl, rfl, rfl, rfl, rfl⟩

theorem blockReset (d : Dev) (pd : Nat) : BlockStarts d pd (d.blockReset pd) := by
  by_cases h9 : pd = 9
  · subst h9
    exact saved d
  have hown : ∀ e, e.regs = d.regs → e.pwr = d.pwr → e.hull = d.hull → e.boot = d.boot → e.nvm = d.nvm → BlockStarts d pd e :=
    fun e hr hp hh hb hn => ofRegs ⟨hp, hh, hb, congrArg Nvm.a hn, congrArg Nvm.b hn⟩ hr
  unfold Dev.blockReset
  refine ite (fun _ => ?_) (ite (fun _ => ?_) (ite (fun _ => ?_) (ite (fun _ => ?_) (ite (fun _ => ?_) (ite (fun _ => ?_)
    (ite (fun _ => ?_) (ite (fun h => absurd h h9) ?_)))))))
  · obtain ⟨q, b, l, h⟩ := arrUpdate_frame (({ d with lat := {} } : Dev).modTherm (fun t => { t with sbSup := 64 }))
    rw [h]
    exact hown _ rfl rfl rfl rfl rfl
  all_goals exact hown _ rfl rfl rfl rfl rfl

end BlockStarts

/-- A register of a page, after its domain's pages take their reset values or another's do (R425). -/
theorem rd_pageReset_own {d : Dev} {pd p o : Nat} (ho : o < 4096) (h : pageDomain p = some pd) :
    (d.pageReset pd).rd p o = rstAt (p * 4096 + o) % 2 ^ 32 := by
  have hpage : (p * 4096 + o) / 4096 = p := by omega
  have hout := tget_filter_out (w32 (rstAt (p * 4096 + o))) d.regs (fun a => pageDomain (a / 4096) != some pd) (p * 4096 + o)
    (by simp [hpage, h])
  unfold rd pageReset
  dsimp only
  rw [hout]
  exact BitVec.toNat_ofNat ..

theorem rd_pageReset_other {d : Dev} {pd p o : Nat} (ho : o < 4096) (h : pageDomain p ≠ some pd) :
    (d.pageReset pd).rd p o = d.rd p o := by
  have hpage : (p * 4096 + o) / 4096 = p := by omega
  have hin := tget_filter (w32 (rstAt (p * 4096 + o))) d.regs (fun a => pageDomain (a / 4096) != some pd) (p * 4096 + o)
    (by simp [hpage, h])
  unfold rd pageReset
  dsimp only
  rw [hin]

/-- What makes a domain READY leaves: registers, power and Hull; a page that is READY stays so. -/
structure ReadyActs (d d' : Dev) : Prop where
  regs : d'.regs = d.regs
  pwr : d'.pwr = d.pwr
  hull : d'.hull = d.hull
  ready : ∀ p, (d.pg p).ready = true → (d'.pg p).ready = true

namespace ReadyActs

theorem refl (d : Dev) : ReadyActs d d := ⟨rfl, rfl, rfl, fun _ h => h⟩

theorem trans {a b c : Dev} (h : ReadyActs a b) (h' : ReadyActs b c) : ReadyActs a c :=
  ⟨h'.regs.trans h.regs, h'.pwr.trans h.pwr, h'.hull.trans h.hull, fun p hp => h'.ready p (h.ready p hp)⟩

theorem ite {d a b : Dev} {c : Prop} [Decidable c] (ha : ReadyActs d a) (hb : ReadyActs d b) :
    ReadyActs d (if c then a else b) := by
  split
  · exact ha
  · exact hb

theorem raise (d : Dev) (p n : Nat) : ReadyActs d (d.raise p n) := by
  have hready : ∀ x, ((d.raise p n).pg x).ready = (d.pg x).ready := by
    intro x
    by_cases hx : x = p
    · subst hx
      by_cases hon : d.pageOn x = true
      · rw [pg_raise_same n hon]
      · rw [raise_off (by simpa using hon)]
    · rw [pg_raise_ne n hx]
  obtain ⟨q, b, h⟩ := raise_eq d p n
  refine ⟨?_, ?_, ?_, fun x hx => (hready x).trans hx⟩ <;> rw [h]

theorem modDiag (d : Dev) (f : Diag → Diag) : ReadyActs d (d.modDiag f) := ⟨rfl, rfl, rfl, fun _ h => h⟩
theorem modCap (d : Dev) (f : Capture → Capture) : ReadyActs d (d.modCap f) := ⟨rfl, rfl, rfl, fun _ h => h⟩
theorem modBoot (d : Dev) (f : Boot → Boot) : ReadyActs d (d.modBoot f) := ⟨rfl, rfl, rfl, fun _ h => h⟩

theorem logDrain (d : Dev) : ReadyActs d d.logDrain := by
  obtain ⟨log, buf, h⟩ := logDrain_frame d
  rw [h]
  exact ⟨rfl, rfl, rfl, fun _ h => h⟩

theorem ptAlarm (d : Dev) (q i : Nat) : ReadyActs d (d.ptAlarm q i) :=
  trans (modDiag d _) (ite (raise _ 0x35 2) (refl _))

theorem ptAlarms (d : Dev) : ReadyActs d d.ptAlarms :=
  trans (foldl_frame refl trans (fun d q => foldl_frame refl trans (fun d i => ptAlarm d q i) (List.range 48) d) (List.range 3) d)
    (foldl_frame refl trans (fun d i => ptAlarm d 3 i) (List.range 4) _)

end ReadyActs

theorem pages_each_updPage (f : Page → Page) (l : List Nat) (d : Dev) :
    (d.each l (fun d p => d.updPage p f)).pages = l.foldl (fun m p => tupd {} m p f) d.pages := by
  unfold each
  induction l generalizing d with
  | nil => rfl
  | cons p r ih => exact ih _

theorem pg_setReady (d : Dev) (pd p : Nat) : (d.setReady (domPages pd) true).pg p =
    if p ∈ domPages pd then { d.pg p with ready := true } else d.pg p := by
  have hpages := pages_each_updPage (fun q => { q with ready := true }) (domPages pd) d
  unfold pg setReady
  rw [hpages]
  exact tget_foldl_tupd {} (fun q : Page => { q with ready := true }) (domPages pd) (List.nodup_range.filter _) d.pages p

theorem ReadyActs.setReady (d : Dev) (pd : Nat) : ReadyActs d (d.setReady (domPages pd) true) := by
  obtain ⟨q, h⟩ := setReady_frame d (domPages pd) true
  refine ⟨by rw [h], by rw [h], by rw [h], fun p hp => ?_⟩
  rw [pg_setReady]
  split
  · rfl
  · exact hp

/-- A domain that has its values is READY, with no register changed (R373, R403). -/
theorem domainReady_acts (d : Dev) (pd : Nat) : ReadyActs d (d.domainReady pd) ∧
    ∀ p, p < 64 → pageDomain p = some pd → ((d.domainReady pd).pg p).ready = true := by
  have hlost : ∀ e : Dev, ReadyActs e (if pd = 7 then
      (if e.cap.lostOff then (e.raise 0x2C 4).modCap (fun c => { c with lostOff := false }) else e).logDrain else e) :=
    fun e => .ite ((ReadyActs.ite ((ReadyActs.raise e 0x2C 4).trans (.modCap _ _)) (.refl e)).trans (.logDrain _)) (.refl e)
  have hfirst : ReadyActs d (if pd = 9 then d.ptAlarms else d) := .ite (.ptAlarms d) (.refl d)
  have hrest : ReadyActs ((if pd = 9 then d.ptAlarms else d).setReady (domPages pd) true) (d.domainReady pd) :=
    (hlost _).trans ((ReadyActs.modBoot _ _).trans (.raise _ 1 0))
  refine ⟨hfirst.trans ((ReadyActs.setReady _ pd).trans hrest), fun p hp hd => hrest.ready p ?_⟩
  rw [pg_setReady, if_pos (by simp [domPages, hp, hd])]

/-- A domain's ON bit sets and its transition ends (R362). -/
def arrived (d : Dev) (pd : Nat) : Dev :=
  d.modPwr (fun p => { p with on := setBit p.on pd true, trans := setBit p.trans pd false, rising := setBit p.rising pd false })

theorem domainStart_eq (d : Dev) (pd : Nat) : d.domainStart pd = ((d.arrived pd).pageReset pd).blockReset pd := rfl

/-- A domain that is turning on takes reset values, its power apart (R362, R425). -/
theorem domainStart_stands (d : Dev) (pd : Nat) : PowerStands (d.arrived pd) (d.domainStart pd) := by
  have hpages : PowerStands (d.arrived pd) ((d.arrived pd).pageReset pd) := ⟨rfl, rfl, rfl, rfl, rfl⟩
  rw [domainStart_eq]
  exact hpages.trans (BlockStarts.blockReset _ pd).stands

/-- Registers as a domain turns on (R263, R425). -/
theorem rd_domainStart_own {d : Dev} {pd p o : Nat} (ho : o < 4096) (h : pageDomain p = some pd)
    (hb : p = 0x35 → ∀ x ∈ d.nvm.base, o ≠ ptBase (x.1 / 64) (x.1 % 64)) :
    (d.domainStart pd).rd p o = rstAt (p * 4096 + o) % 2 ^ 32 := by
  rw [domainStart_eq]
  exact ((BlockStarts.blockReset ((d.arrived pd).pageReset pd) pd).rd p o ho (fun _ => hb)).trans (rd_pageReset_own ho h)

theorem rd_domainStart_other {d : Dev} {pd p o : Nat} (ho : o < 4096) (h : pageDomain p ≠ some pd) :
    (d.domainStart pd).rd p o = d.rd p o := by
  rw [domainStart_eq]
  refine ((BlockStarts.blockReset ((d.arrived pd).pageReset pd) pd).rd p o ho (fun h9 hp => ?_)).trans (rd_pageReset_other ho h)
  subst h9 hp
  exact absurd rfl h

theorem image_congr {d e : Dev} (h : PowerStands d e) : e.image = d.image := by
  unfold image
  rw [h.boot, h.slotA, h.slotB]

/-- With no image nothing is loaded (R421). -/
theorem domainLoad_none {d : Dev} (now pd : Nat) (h : d.awareUp = false ∨ d.image = none) : d.domainLoad now pd = d := by
  unfold domainLoad
  rcases h with h | h
  · exact if_neg (by simp [h])
  · simp [loadPages, loadBlock, h]

end Dev

namespace Dev

/-- What a domain that turns off leaves: registers, Hull and, of its power, which domains are on and changing. -/
structure OffActs (d d' : Dev) : Prop where
  regs : d'.regs = d.regs
  hull : d'.hull = d.hull

namespace OffActs

theorem refl (d : Dev) : OffActs d d := ⟨rfl, rfl⟩

theorem trans {a b c : Dev} (h : OffActs a b) (h' : OffActs b c) : OffActs a c := ⟨h'.regs.trans h.regs, h'.hull.trans h.hull⟩

theorem ite {d a b : Dev} {c : Prop} [Decidable c] (ha : OffActs d a) (hb : OffActs d b) : OffActs d (if c then a else b) := by
  split
  · exact ha
  · exact hb

theorem ofBlock {d d' : Dev} (h : BlockStops d d') : OffActs d d' := by
  obtain ⟨_, _, _, _, _, _, _, rfl⟩ := h
  exact ⟨rfl, rfl⟩

theorem ofPorts {d d' : Dev} (h : PortsOnly d d') : OffActs d d' := by
  obtain ⟨_, rfl⟩ := h
  exact ⟨rfl, rfl⟩

theorem updCtx (d : Dev) (c : Nat) (f : Ctx → Ctx) : OffActs d (d.updCtx c f) := ⟨rfl, rfl⟩
theorem modPwr (d : Dev) (f : Pwr → Pwr) : OffActs d (d.modPwr f) := ⟨rfl, rfl⟩
theorem modNvm (d : Dev) (f : Nvm → Nvm) : OffActs d (d.modNvm f) := ⟨rfl, rfl⟩

theorem saveArea (d : Dev) : OffActs d d.saveArea := by
  unfold Dev.saveArea
  dsimp only
  exact modNvm d _

theorem ctxOff (d : Dev) (f : Ctx → Ctx) : OffActs d (d.each allCtx (fun d c => d.updCtx c f)) :=
  foldl_frame refl trans (fun d c => updCtx d c f) _ d

theorem portsOff (d : Dev) : OffActs d (d.each (List.range 8) (fun d n => (d.updPort n rxOffOf).txStop n)) :=
  foldl_frame refl trans (fun d n => ofPorts ((PortsOnly.updPort d n rxOffOf).trans (PortsOnly.updPort _ n _))) _ d

theorem blockOff (d : Dev) (now pd : Nat) : OffActs d (d.blockOff now pd) := by
  unfold Dev.blockOff
  refine trans (ofBlock (BlockStops.blockStop d now pd)) ?_
  generalize d.blockStop now pd = e
  refine ite (ctxOff e _) (ite ⟨rfl, rfl⟩ (ite ⟨rfl, rfl⟩ (ite ⟨rfl, rfl⟩ (ite ⟨rfl, rfl⟩ (ite ?_ (ite ?_ (refl _)))))))
  · exact trans (portsOff e) (modPwr _ _)
  · exact trans (ite (saveArea e) (refl e)) (modNvm _ _)

end OffActs

/-- The pages of a domain are gone: its events, masks and keys (R403, R416). -/
def pagesGone (d : Dev) (pd : Nat) : Dev := { d with pages := d.pages.filter (fun e => pageDomain e.1 != some pd) }

theorem pg_pagesGone {d : Dev} {pd p : Nat} (h : pageDomain p = some pd) : (d.pagesGone pd).pg p = {} :=
  tget_filter_out ({} : Page) d.pages (fun p => pageDomain p != some pd) p (by simp [h])

/-- A domain that is turning off, is not requested again and has no fade to await, is off (R359, R362). -/
theorem doDomainOff_eq {d : Dev} (now : Nat) {pd : Nat} (hlo : 2 ≤ pd) (hhi : pd ≤ 9) (htrans : bit d.pwr.trans pd = true)
    (hfall : bit d.pwr.rising pd = false) (hreq : d.flag 1 0x20 pd = false) (hfade : pd ≠ 8 ∨ d.pwr.fadeOff = false) :
    ∃ f, d.doDomainOff now pd = ((((((d.blockOff now pd).latchDrop pd).pagesGone pd).modPwr (fun p =>
      { p with on := setBit p.on pd false, trans := setBit p.trans pd false })).modBoot f).raise 1 1) := by
  have hnot : ¬((decide (pd < 2) || decide (9 < pd) || !bit d.pwr.trans pd || bit d.pwr.rising pd || (pd == 8 && d.pwr.fadeOff)) = true) := by
    rcases hfade with h | h <;> simp [htrans, hfall, h] <;> omega
  have hagain : ∀ f, ¬((((((d.blockOff now pd).latchDrop pd).pagesGone pd).modPwr f).flag 1 0x20 pd) = true) := by
    intro f
    have hr : (((((d.blockOff now pd).latchDrop pd).pagesGone pd).modPwr f).flag 1 0x20 pd) = d.flag 1 0x20 pd :=
      congrArg (fun m => bit (tget (w32 (rstAt (1 * 4096 + 0x20))) m (1 * 4096 + 0x20)).toNat pd) (OffActs.blockOff d now pd).regs
    rw [hr, hreq]
    decide
  exact ⟨_, (if_neg hnot).trans (if_neg (hagain _))⟩

end Dev

/-- Settles O47. -/
theorem domainsTurnOnAndOff : Obligations.DomainsTurnOnAndOff := by
  unfold Obligations.DomainsTurnOnAndOff
  intro pd s hlo hhi htrans
  refine ⟨fun hrise => ?_, fun hfall hreq hfade => ?_⟩
  · have hstands := Dev.domainStart_stands s.dev pd
    obtain ⟨hacts, hready⟩ := Dev.domainReady_acts ((s.dev.domainStart pd).domainLoad s.now pd) pd
    have haware : (s.dev.domainStart pd).awareUp = s.dev.awareUp :=
      congrArg (fun b : Boot => decide (3 ≤ b.stage.rank)) hstands.boot
    refine ⟨?_, ?_, congrArg Hull.hold hstands.hull, fun p o hp ho hd hbase => Dev.rd_domainStart_own ho hd hbase,
      fun p o hp ho hd => Dev.rd_domainStart_other ho hd, fun hnone => Dev.domainLoad_none s.now pd ?_,
      fun hup => if_pos (haware.trans hup), _, next_withDev (if_neg (by simp [htrans, hrise]; omega)), rfl, rfl, rfl, hacts.regs,
      hacts.pwr, hacts.hull, hready⟩
    · exact (congrArg (fun w : Pwr => bit w.on pd) hstands.pwr).trans (bit_setBit_true _ pd)
    · exact (congrArg (fun w : Pwr => bit w.trans pd) hstands.pwr).trans (bit_setBit_false _ pd)
    · exact hnone.imp haware.trans (Dev.image_congr hstands).trans
  · obtain ⟨f, hoff⟩ := Dev.doDomainOff_eq s.now hlo hhi htrans hfall hreq hfade
    have hne : ∀ p, pageDomain p = some pd → p ≠ 1 := by
      rintro p hd rfl
      obtain rfl : 0 = pd := Option.some.inj hd
      exact absurd hlo (by decide)
    refine ⟨_, next_withDev hoff, rfl, rfl, rfl, ?_, ?_, ?_, fun p hp hd => (Dev.pg_raise_ne 1 (hne p hd)).trans (Dev.pg_pagesGone hd)⟩
    all_goals
      obtain ⟨q, b, h⟩ := Dev.raise_eq ((((((s.dev.blockOff s.now pd).latchDrop pd).pagesGone pd).modPwr (fun p =>
        { p with on := setBit p.on pd false, trans := setBit p.trans pd false })).modBoot f)) 1 1
      dsimp only [State.withDev]
      rw [h]
    · exact bit_setBit_false _ pd
    · exact bit_setBit_false _ pd
    · exact congrArg Hull.hold (Dev.OffActs.blockOff s.dev s.now pd).hull

end Sys2Proof.Machine
end

section
/-! Triggers and records (R309, R311, R312, R319). -/

namespace Sys2Proof.Machine
namespace Dev

theorem ringOf_updRing_same (d : Dev) (i : Nat) (f : RingSt → RingSt) : (d.updRing i f).ringOf i = f (d.ringOf i) := by
  unfold updRing ringOf
  dsimp only [modCap]
  split
  · rfl
  · split <;> rfl

theorem ringOf_raise (d : Dev) (i p n : Nat) : (d.raise p n).ringOf i = d.ringOf i := by
  obtain ⟨q, b, h⟩ := raise_eq d p n
  rw [h]
  rfl

/-! An external trigger reaches the trigger output (R319). -/

theorem pulse_updRing (d : Dev) (i : Nat) (f : RingSt → RingSt) : (d.updRing i f).cap.pulse = d.cap.pulse := by
  unfold updRing
  dsimp only [modCap]
  split
  · rfl
  · split <;> rfl

theorem pulse_raise (d : Dev) (p n : Nat) : (d.raise p n).cap.pulse = d.cap.pulse := by
  obtain ⟨q, b, h⟩ := raise_eq d p n
  rw [h]

theorem pulse_ite {d a b : Dev} {c : Prop} [Decidable c] (ha : a.cap.pulse = d.cap.pulse) (hb : b.cap.pulse = d.cap.pulse) :
    (if c then a else b).cap.pulse = d.cap.pulse := by
  split
  · exact ha
  · exact hb

theorem pulse_ringTrig (d : Dev) (i src unit stamp fine : Nat) : (d.ringTrig i src unit stamp fine).cap.pulse = d.cap.pulse := by
  unfold ringTrig
  refine pulse_ite rfl ((pulse_raise ..).trans ?_)
  split
  · exact pulse_updRing d i _
  · exact pulse_updRing d i _

/-- The rings take a trigger; nothing but events and records changes, and no pulse (R309). -/
theorem ringsTrig_frame (d : Dev) (src unit stamp fine : Nat) :
    CapEvents d ([0, 1, 3].foldl (fun d i => d.ringTrig i src unit stamp fine) d) ∧
      ([0, 1, 3].foldl (fun d i => d.ringTrig i src unit stamp fine) d).cap.pulse = d.cap.pulse :=
  ⟨foldl_frame .refl .trans (fun d i => CapEvents.ringTrig d i src unit stamp fine) _ d,
    foldl_frame (R := fun d d' => d'.cap.pulse = d.cap.pulse) (fun _ => rfl) (fun h h' => h'.trans h)
      (fun d i => pulse_ringTrig d i src unit stamp fine) [0, 1, 3] d⟩

/-- An external trigger that the output selects starts a pulse where none is out (R319). -/
theorem pulse_trigger_ext {d : Dev} {now stamp fine : Nat} (hdom : d.domOn 7 = true) (hout : d.flag 0x2C 0x2C 1 = true)
    (hsel : d.flag 0x2C 0x30 1 = true) (hfree : d.cap.pulse = none) :
    (d.trigger now 1 255 stamp fine).cap.pulse = some (now + 100 * d.fld 0x2C 0x30 31 16) := by
  obtain ⟨⟨q, b, c, h, -⟩, hp⟩ := ringsTrig_frame d 1 255 stamp fine
  have htrig : d.trigger now 1 255 stamp fine =
      (if ([0, 1, 3].foldl (fun d i => d.ringTrig i 1 255 stamp fine) d).domOn 7 &&
          ([0, 1, 3].foldl (fun d i => d.ringTrig i 1 255 stamp fine) d).flag 0x2C 0x2C 1 &&
          bit (([0, 1, 3].foldl (fun d i => d.ringTrig i 1 255 stamp fine) d).rd 0x2C 0x30) 1 &&
          ([0, 1, 3].foldl (fun d i => d.ringTrig i 1 255 stamp fine) d).cap.pulse.isNone then
        ([0, 1, 3].foldl (fun d i => d.ringTrig i 1 255 stamp fine) d).modCap (fun x =>
          { x with pulse := some (now + 100 * ([0, 1, 3].foldl (fun d i => d.ringTrig i 1 255 stamp fine) d).fld 0x2C 0x30 31 16) })
      else [0, 1, 3].foldl (fun d i => d.ringTrig i 1 255 stamp fine) d) := rfl
  rw [htrig, hp, hfree]
  generalize [0, 1, 3].foldl (fun d i => d.ringTrig i 1 255 stamp fine) d = e at h hp ⊢
  subst h
  refine (congrArg (fun x : Dev => x.cap.pulse) (if_pos ?_)).trans rfl
  rw [Bool.and_eq_true, Bool.and_eq_true, Bool.and_eq_true]
  exact ⟨⟨⟨hdom, hout⟩, hsel⟩, rfl⟩

/-! Records that close (R311, R312). -/

/-- The record that closes, as it is kept: locked by the readouts submitted before. -/
def keptRec (d : Dev) (i : Nat) (o : Rec) : Rec := { o with trunc := i != 3 && decide (0 < o.left), reads := d.readsOf i o.id }
/-- The slots that have held a record, the one that closes among them. -/
def usedSlots (r : RingSt) : List Nat := if r.used.contains r.slot then r.used else r.used ++ [r.slot]
/-- The ring as the record closes, with the event of it. -/
def ringClosed (d : Dev) (now i : Nat) (o : Rec) : Dev :=
  (d.updRing i (fun r => { r with newest := o.id, opened := none, live := [], since := now })).raise 0x2C 1

section
variable {d : Dev} {now i : Nat} {o : Rec}

theorem closeRec_free (hopen : (d.ringOf i).opened = some o) {n : Nat}
    (hfree : (List.range (d.ringOf i).slots).find? (fun n => !(usedSlots (d.ringOf i)).contains n) = some n) :
    d.closeRec now i = (d.ringClosed now i o).updRing i (fun r =>
      { r with recs := d.keptRec i o :: r.recs, used := usedSlots (d.ringOf i), slot := n }) := by
  unfold usedSlots at hfree
  simp only [closeRec, hopen, hfree]
  rfl

theorem closeRec_over (hopen : (d.ringOf i).opened = some o) {v : Rec}
    (hfull : (List.range (d.ringOf i).slots).find? (fun n => !(usedSlots (d.ringOf i)).contains n) = none)
    (hv : (d.ringOf i).recs.reverse.find? (fun x => !recLocked x) = some v) :
    d.closeRec now i = ((d.ringClosed now i o).updRing i (fun r => { r with
      recs := d.keptRec i o :: r.recs.filter (fun x => x.id != v.id), used := usedSlots (d.ringOf i), slot := v.slot
      nOver := sat1 16 r.nOver })).raise 0x2C 2 := by
  unfold usedSlots at hfull
  simp only [closeRec, hopen, hfull, hv]
  rfl

theorem closeRec_lost (hopen : (d.ringOf i).opened = some o)
    (hfull : (List.range (d.ringOf i).slots).find? (fun n => !(usedSlots (d.ringOf i)).contains n) = none)
    (hv : (d.ringOf i).recs.reverse.find? (fun x => !recLocked x) = none) :
    d.closeRec now i = ((d.ringClosed now i o).updRing i (fun r => { r with lost := satN 16 r.lost (o.ntrig + 1) })).raise 0x2C 3 := by
  unfold usedSlots at hfull
  simp only [closeRec, hopen, hfull, hv]
  rfl

end

/-- What holds of the ring and of the device whatever becomes of the record that closed. -/
structure RingCloses (d : Dev) (now i : Nat) (o : Rec) (t : Dev) : Prop where
  regs : t.regs = d.regs
  on : t.pageOn 0x2C = d.pageOn 0x2C
  opened : (t.ringOf i).opened = none
  newest : (t.ringOf i).newest = o.id
  live : (t.ringOf i).live = []
  since : (t.ringOf i).since = now
  event : d.pageOn 0x2C = true → bit (t.pg 0x2C).raw 1 = true

namespace RingCloses
variable {d t : Dev} {now i : Nat} {o : Rec}

theorem pageOn_congr {d e : Dev} (h : e.pwr = d.pwr) (p : Nat) : e.pageOn p = d.pageOn p := by
  unfold pageOn domOn
  rw [h]

theorem ringClosed (d : Dev) (now i : Nat) (o : Rec) : RingCloses d now i o (d.ringClosed now i o) := by
  have hring : (d.ringClosed now i o).ringOf i = { d.ringOf i with newest := o.id, opened := none, live := [], since := now } :=
    (ringOf_raise ..).trans (ringOf_updRing_same ..)
  obtain ⟨q, b, h, hraw⟩ := raise_sets (d.updRing i (fun r => { r with newest := o.id, opened := none, live := [], since := now })) 0x2C 1
  refine ⟨?_, ?_, by rw [hring], by rw [hring], by rw [hring], by rw [hring], fun hon => ?_⟩
  all_goals
    unfold Dev.ringClosed
    rw [h]
  · rfl
  · rfl
  · exact hraw hon

theorem updRing (h : RingCloses d now i o t) {f : RingSt → RingSt} (hf : ∀ r, (f r).opened = r.opened ∧ (f r).newest = r.newest ∧
    (f r).live = r.live ∧ (f r).since = r.since) : RingCloses d now i o (t.updRing i f) := by
  obtain ⟨hopened, hnewest, hlive, hsince⟩ := hf (t.ringOf i)
  have hring := ringOf_updRing_same t i f
  exact ⟨h.regs, h.on, by rw [hring, hopened, h.opened], by rw [hring, hnewest, h.newest], by rw [hring, hlive, h.live],
    by rw [hring, hsince, h.since], h.event⟩

theorem raise (h : RingCloses d now i o t) {n : Nat} (hn : n ≠ 1) : RingCloses d now i o (t.raise 0x2C n) := by
  have hring := ringOf_raise t i 0x2C n
  obtain ⟨q, b, hr⟩ := raise_eq t 0x2C n
  refine ⟨?_, ?_, by rw [hring, h.opened], by rw [hring, h.newest], by rw [hring, h.live], by rw [hring, h.since], fun hon => ?_⟩
  · rw [hr]
    exact h.regs
  · rw [hr]
    exact h.on
  · rw [pg_raise_same n (h.on.trans hon)]
    exact (bit_setBit_true_ne (Ne.symm hn)).trans (h.event hon)

/-- Whatever becomes of the record. -/
theorem closeRec (hopen : (d.ringOf i).opened = some o) : RingCloses d now i o (d.closeRec now i) := by
  have hc := ringClosed d now i o
  cases hfree : (List.range (d.ringOf i).slots).find? (fun n => !(usedSlots (d.ringOf i)).contains n) with
  | some n =>
    rw [closeRec_free hopen hfree]
    exact hc.updRing (fun _ => ⟨rfl, rfl, rfl, rfl⟩)
  | none =>
    cases hv : (d.ringOf i).recs.reverse.find? (fun x => !recLocked x) with
    | some v =>
      rw [closeRec_over hopen hfree hv]
      refine raise (n := 2) ?_ (by decide)
      exact hc.updRing (fun _ => ⟨rfl, rfl, rfl, rfl⟩)
    | none =>
      rw [closeRec_lost hopen hfree hv]
      refine raise (n := 3) ?_ (by decide)
      exact hc.updRing (fun _ => ⟨rfl, rfl, rfl, rfl⟩)

end RingCloses

section
variable {d : Dev} {now i : Nat} {o : Rec}

theorem ringOf_ringClosed (d : Dev) (now i : Nat) (o : Rec) : (d.ringClosed now i o).ringOf i =
    { d.ringOf i with newest := o.id, opened := none, live := [], since := now } :=
  (ringOf_raise ..).trans (ringOf_updRing_same ..)

/-- The lowest free slot takes the next record; this one is kept, newest first (R311). -/
theorem closeRec_free_ring (hopen : (d.ringOf i).opened = some o) {n : Nat} (hn : n < (d.ringOf i).slots)
    (hfree : (usedSlots (d.ringOf i)).contains n = false) (hlow : ∀ m, m < n → (usedSlots (d.ringOf i)).contains m = true) :
    ((d.closeRec now i).ringOf i).recs = d.keptRec i o :: (d.ringOf i).recs ∧ ((d.closeRec now i).ringOf i).slot = n ∧
      ((d.closeRec now i).ringOf i).lost = (d.ringOf i).lost := by
  have hfind : (List.range (d.ringOf i).slots).find? (fun n => !(usedSlots (d.ringOf i)).contains n) = some n := by
    rw [List.find?_range_eq_some]
    exact ⟨by simp only [hfree, Bool.not_false], List.mem_range.mpr hn, fun m hm => by simp only [hlow m hm, Bool.not_not]⟩
  rw [closeRec_free hopen hfind, ringOf_updRing_same, ringOf_ringClosed]
  exact ⟨rfl, rfl, rfl⟩

theorem find_full (hfull : ∀ n, n < (d.ringOf i).slots → (usedSlots (d.ringOf i)).contains n = true) :
    (List.range (d.ringOf i).slots).find? (fun n => !(usedSlots (d.ringOf i)).contains n) = none := by
  rw [List.find?_range_eq_none]
  exact fun n hn => by simp only [hfull n hn, Bool.not_not]

/-- Where every record is locked the one that closes is lost (R311). -/
theorem closeRec_lost_ring (hopen : (d.ringOf i).opened = some o)
    (hfull : ∀ n, n < (d.ringOf i).slots → (usedSlots (d.ringOf i)).contains n = true)
    (hlocked : ∀ v, v ∈ (d.ringOf i).recs → recLocked v = true) :
    ((d.closeRec now i).ringOf i).recs = (d.ringOf i).recs ∧
      ((d.closeRec now i).ringOf i).lost = satN 16 (d.ringOf i).lost (o.ntrig + 1) := by
  have hnone : (d.ringOf i).recs.reverse.find? (fun x => !recLocked x) = none := by
    rw [List.find?_eq_none]
    exact fun v hv => by simp [hlocked v (List.mem_reverse.mp hv)]
  rw [closeRec_lost hopen (find_full hfull) hnone, ringOf_raise, ringOf_updRing_same, ringOf_ringClosed]
  exact ⟨rfl, rfl⟩

/-- The oldest unlocked record gives way and is counted (R311). -/
theorem closeRec_over_ring (hopen : (d.ringOf i).opened = some o)
    (hfull : ∀ n, n < (d.ringOf i).slots → (usedSlots (d.ringOf i)).contains n = true) {v : Rec} {older newer : List Rec}
    (hrecs : (d.ringOf i).recs = newer ++ v :: older) (holder : ∀ w, w ∈ older → recLocked w = true) (hv : recLocked v = false) :
    ((d.closeRec now i).ringOf i).recs = d.keptRec i o :: (d.ringOf i).recs.filter (fun w => w.id != v.id) ∧
      ((d.closeRec now i).ringOf i).slot = v.slot ∧ ((d.closeRec now i).ringOf i).nOver = sat1 16 (d.ringOf i).nOver := by
  have hsome : (d.ringOf i).recs.reverse.find? (fun x => !recLocked x) = some v := by
    have hskip : older.reverse.find? (fun x => !recLocked x) = none := by
      rw [List.find?_eq_none]
      exact fun w hw => by simp [holder w (List.mem_reverse.mp hw)]
    simp [hrecs, hskip, hv]
  rw [closeRec_over hopen (find_full hfull) hsome, ringOf_raise, ringOf_updRing_same, ringOf_ringClosed]
  exact ⟨rfl, rfl, rfl⟩

end
end Dev

/-- Settles O55. -/
theorem triggersAndRecordsAct : Obligations.TriggersAndRecordsAct := by
  unfold Obligations.TriggersAndRecordsAct
  intro edge i o s
  refine ⟨fun hdom hin => ⟨?_, ?_, fun hout hsel hfree => Dev.pulse_trigger_ext hdom hout hsel hfree⟩, fun hoff rising => ?_, rfl,
    fun hi hopen => ?_⟩
  · exact next_withDev (if_neg (by simp))
  · exact next_withDev (if_pos (by simp [hdom, hin]))
  · exact next_withDev (if_neg (by simp [hoff]))
  · have hclose : (decide (i = 0) || decide (i = 1) || decide (i = 3)) = true := by simpa [or_assoc] using hi
    have hring := Dev.RingCloses.closeRec (now := s.now) hopen
    exact ⟨_, next_withDev (if_pos hclose), rfl, rfl, rfl, hring.regs, hring.opened, hring.newest, hring.live, hring.since, hring.event,
      fun n hn hfree hlow => Dev.closeRec_free_ring hopen hn hfree hlow,
      fun hfull hlocked => Dev.closeRec_lost_ring hopen hfull hlocked,
      fun v older newer hfull hrecs holder hv => Dev.closeRec_over_ring hopen hfull hrecs holder hv⟩

end Sys2Proof.Machine
end

section
/-! The shares of a string (R157). -/

namespace Sys2Proof.Machine

theorem sumN_eq_sum (l : List Nat) : sumN l = l.sum := List.sum_eq_foldl.symm

theorem sumR_eq_sum (l : List Rat) : sumR l = l.sum := List.sum_eq_foldl.symm

/-- The whole 2,048ths of a target (R157). -/
def wholeUnits (x : Rat) : Nat := (x * 2048).floor.toNat

theorem wholeUnits_cast {x : Rat} (h : 0 ≤ x) : ((wholeUnits x : Nat) : Rat) = ((x * 2048).floor : Rat) := by
  have hnn : 0 ≤ (x * 2048).floor := Rat.le_floor_iff.mpr (by
    rw [Int.cast_zero]
    exact mul_nonneg h (by norm_num))
  unfold wholeUnits
  exact_mod_cast congrArg (fun z : Int => (z : Rat)) (Int.toNat_of_nonneg hnn)

theorem wholeUnits_le {x : Rat} (h : 0 ≤ x) : ((wholeUnits x : Nat) : Rat) ≤ x * 2048 := by
  rw [wholeUnits_cast h]
  exact Rat.floor_le _

theorem lt_wholeUnits {x : Rat} (h : 0 ≤ x) : x * 2048 - 1 < ((wholeUnits x : Nat) : Rat) := by
  rw [wholeUnits_cast h]
  exact Rat.lt_floor

/-- What truncation takes from a list of targets is not negative and less than one unit of each. -/
theorem sum_wholeUnits_bounds {l : List Rat} (h : ∀ x ∈ l, 0 ≤ x) :
    (((l.map wholeUnits).sum : Nat) : Rat) ≤ l.sum * 2048 ∧ l.sum * 2048 ≤ (((l.map wholeUnits).sum + l.length : Nat) : Rat) := by
  induction l with
  | nil => simp
  | cons x r ih =>
    obtain ⟨hlo, hhi⟩ := ih (fun y hy => h y (List.mem_cons_of_mem _ hy))
    have hx := h x (List.mem_cons_self ..)
    have hle := wholeUnits_le hx
    have hlt := lt_wholeUnits hx
    simp only [List.map_cons, List.sum_cons, List.length_cons]
    push_cast at hlo hhi ⊢
    constructor <;> linarith

/-- Members marked among distinct ones: as many as are marked. -/
theorem sum_marks {up keys : List Nat} (hkeys : keys.Nodup) (hup : up.Nodup) (hsub : ∀ k ∈ up, k ∈ keys) :
    (keys.map (fun k => b2n (up.contains k))).sum = up.length := by
  have hcount : ∀ l : List Nat, (l.map (fun k => b2n (up.contains k))).sum = (l.filter (fun k => up.contains k)).length := by
    intro l
    induction l with
    | nil => rfl
    | cons k r ih =>
      rw [List.map_cons, List.sum_cons, ih, List.filter_cons]
      cases up.contains k
      · simp [b2n]
      · simp [b2n, Nat.add_comm]
  have hperm : (keys.filter (fun k => up.contains k)).Perm up := by
    rw [List.perm_ext_iff_of_nodup (hkeys.filter _) hup]
    intro k
    simp only [List.mem_filter, List.contains_iff_mem]
    exact ⟨fun h => h.2, fun h => ⟨hsub k h, h⟩⟩
  rw [hcount, hperm.length_eq]

/-- The truncated targets with their remainders, as `quantise` orders them. -/
def truncated (l : List (VWork × Rat)) : List (VWork × Nat × Rat) :=
  l.map (fun p => (p.1, wholeUnits p.2, p.2 * 2048 - ((p.2 * 2048).floor : Rat)))
/-- The cells that get a unit back. -/
def raised (total : Nat) (l : List (VWork × Rat)) : List Nat :=
  (((truncated l).mergeSort (fun a b => decide (b.2.2 < a.2.2) || (decide (b.2.2 = a.2.2) && decide (a.1.pos ≤ b.1.pos)))).take
    (total * 2048 - (l.map (fun p => wholeUnits p.2)).sum)).map (fun t => t.1.k)

theorem quantise_eq (total : Nat) (l : List (VWork × Rat)) :
    quantise total l = l.map (fun p => { p.1 with g := wholeUnits p.2 + b2n ((raised total l).contains p.1.k) }) := by
  have hsum : sumN ((truncated l).map (fun t => t.2.1)) = (l.map (fun p => wholeUnits p.2)).sum := by
    rw [sumN_eq_sum, truncated, List.map_map]
    rfl
  have hq : quantise total l = (truncated l).map (fun t => { t.1 with g := t.2.1 + b2n ((((truncated l).mergeSort (fun a b =>
      decide (b.2.2 < a.2.2) || (decide (b.2.2 = a.2.2) && decide (a.1.pos ≤ b.1.pos)))).take
        (total * 2048 - sumN ((truncated l).map (fun t => t.2.1)))).map (fun t => t.1.k) |>.contains t.1.k) }) := rfl
  rw [hq, hsum]
  exact List.map_map ..

section
variable {total : Nat} {l : List (VWork × Rat)}

theorem keys_sorted_perm (l : List (VWork × Rat)) (le : VWork × Nat × Rat → VWork × Nat × Rat → Bool) :
    (((truncated l).mergeSort le).map (fun t => t.1.k)).Perm (l.map (fun p => p.1.k)) := by
  refine ((List.mergeSort_perm _ le).map _).trans ?_
  rw [truncated, List.map_map]
  exact List.Perm.refl _

theorem raised_nodup (h : (l.map (fun p => p.1.k)).Nodup) : (raised total l).Nodup := by
  unfold raised
  rw [List.map_take]
  exact ((keys_sorted_perm l _).nodup_iff.mpr h).sublist (List.take_sublist ..)

theorem raised_subset {k : Nat} (h : k ∈ raised total l) : k ∈ l.map (fun p => p.1.k) := by
  unfold raised at h
  rw [List.map_take] at h
  exact (keys_sorted_perm l _).mem_iff.mp (List.mem_of_mem_take h)

/-- Where the targets sum to the total, as many cells get a unit back as truncation took (R157). -/
theorem raised_length (hnn : ∀ p ∈ l, 0 ≤ p.2) (hsum : (l.map (fun p => p.2)).sum = (total : Rat)) :
    (l.map (fun p => wholeUnits p.2)).sum + (raised total l).length = total * 2048 := by
  obtain ⟨hlo, hhi⟩ := sum_wholeUnits_bounds (l := l.map (fun p => p.2)) (by simpa using fun x p hp => hnn (p, x) hp)
  rw [hsum, List.map_map, List.length_map] at hhi
  rw [hsum, List.map_map] at hlo
  have hle : (l.map (fun p => wholeUnits p.2)).sum ≤ total * 2048 := by exact_mod_cast hlo
  have hge : total * 2048 ≤ (l.map (fun p => wholeUnits p.2)).sum + l.length := by exact_mod_cast hhi
  have hlen : (raised total l).length = min (total * 2048 - (l.map (fun p => wholeUnits p.2)).sum) l.length := by
    simp [raised, truncated]
  omega

/-- Each share lies within one unit of its target (R157). -/
theorem share_bounds {x : Rat} (hx : 0 ≤ x) (b : Bool) :
    x * 2048 - 1 < ((wholeUnits x + b2n b : Nat) : Rat) ∧ ((wholeUnits x + b2n b : Nat) : Rat) ≤ x * 2048 + 1 := by
  have hle := wholeUnits_le hx
  have hlt := lt_wholeUnits hx
  cases b <;> simp only [b2n, if_true, if_false, Bool.false_eq_true] <;> push_cast <;> constructor <;> linarith

end

/-- Settles O60. -/
theorem sharesSumToTheirTotal : Obligations.SharesSumToTheirTotal := by
  unfold Obligations.SharesSumToTheirTotal
  intro total l hkeys hnn hsum
  rw [sumR_eq_sum] at hsum
  rw [quantise_eq]
  refine ⟨?_, fun y hy => ?_⟩
  · have hmarks := sum_marks hkeys (raised_nodup (total := total) hkeys) (fun k hk => raised_subset hk)
    rw [List.map_map] at hmarks
    rw [sumN_eq_sum, List.map_map, ← raised_length hnn hsum, ← hmarks]
    exact List.sum_map_add
  · obtain ⟨p, hp, rfl⟩ := List.mem_map.mp hy
    exact ⟨p, hp, rfl, share_bounds (hnn p hp) _⟩

end Sys2Proof.Machine
end

section
/-! The commit of one context, and its requests (R188, R190, R210). -/

namespace Sys2Proof.Machine

/-- A value mapped at every key: the mapped value, or the default where the key is absent. -/
theorem tget_map {α : Type} (z : α) (f : α → α) (m : Tbl α) (k : Nat) :
    tget z (m.map (fun p => (p.1, f p.2))) k = f (tget z m k) ∨
      (tget z (m.map (fun p => (p.1, f p.2))) k = z ∧ tget z m k = z) := by
  induction m with
  | nil => exact .inr ⟨rfl, rfl⟩
  | cons x r ih =>
    rw [List.map_cons]
    unfold tget
    split
    · exact .inl rfl
    · exact ih

/-- What a commit leaves of an element: nothing of its run, and its results where they are committed (R188). -/
def clearElem (commit : Bool) (e : Elem) : Elem :=
  { e with
    done := false, inp := [], sst := [], sout := [0, 0, 0, 0], sclamp := 0
    inpLast := if e.done then e.inp else e.inpLast
    out := if commit && e.done then e.sout else e.out
    st := if commit && e.done then e.sst else e.st
    clamp := if commit && e.done then e.sclamp else e.clamp
    first := if commit && e.done then false else e.first }

namespace Dev

theorem clearRun_eq (d : Dev) (c : Nat) (commit : Bool) : d.clearRun c commit = d.updCtx c (fun x =>
    { x with ssat := false, el := x.el.map (fun p => (p.1, clearElem commit p.2)) }) := rfl

theorem elem_clearRun (d : Dev) (c e : Nat) (commit : Bool) : (d.clearRun c commit).elem c e = clearElem commit (d.elem c e) ∨
    ((d.clearRun c commit).elem c e = {} ∧ d.elem c e = {}) := by
  rw [clearRun_eq]
  unfold elem
  rw [cx_updCtx_same]
  exact tget_map {} (clearElem commit) (d.cx c).el e

/-- An element that has ended gives its shadow results to its committed ones (R188). -/
theorem elem_clearRun_done {d : Dev} {c e : Nat} (h : (d.elem c e).done = true) :
    (d.clearRun c true).elem c e = clearElem true (d.elem c e) := by
  rcases elem_clearRun d c e true with hmap | ⟨-, hnone⟩
  · exact hmap
  · rw [hnone] at h
    exact Bool.noConfusion h

/-- Only one context and what follows from it change: no register, no part of Hull, no other context. -/
structure CtxOnly (c : Nat) (d d' : Dev) : Prop where
  regs : d'.regs = d.regs
  hull : d'.hull = d.hull
  viol : d'.viol = d.viol
  cx : ∀ x, x ≠ c → d'.cx x = d.cx x

namespace CtxOnly
variable {c : Nat}

theorem refl (d : Dev) : CtxOnly c d d := ⟨rfl, rfl, rfl, fun _ _ => rfl⟩

theorem trans {a b e : Dev} (h : CtxOnly c a b) (h' : CtxOnly c b e) : CtxOnly c a e :=
  ⟨h'.regs.trans h.regs, h'.hull.trans h.hull, h'.viol.trans h.viol, fun x hx => (h'.cx x hx).trans (h.cx x hx)⟩

theorem bus (d : Dev) (b : Bus) : CtxOnly c d { d with bus := b } := ⟨rfl, rfl, rfl, fun _ _ => rfl⟩

theorem updCtx (d : Dev) (c : Nat) (f : Ctx → Ctx) : CtxOnly c d (d.updCtx c f) := ⟨rfl, rfl, rfl, fun _ hx => cx_updCtx_ne hx⟩

theorem raise (d : Dev) (p n : Nat) : CtxOnly c d (d.raise p n) := by
  obtain ⟨q, b, h⟩ := raise_eq d p n
  rw [h]
  exact ⟨rfl, rfl, rfl, fun _ _ => rfl⟩

theorem raiseLog (d : Dev) (ts p n unit detail sub : Nat) (arg : Int) :
    CtxOnly c d (d.raiseLog ts p n unit detail sub arg) := by
  obtain ⟨q, b, k, h⟩ := raiseLog_frame d ts p n unit detail sub arg
  rw [h]
  exact ⟨rfl, rfl, rfl, fun _ _ => rfl⟩

theorem loadEnd (d : Dev) (now c st res : Nat) : CtxOnly c d (d.loadEnd now c st res) := by
  unfold Dev.loadEnd
  split
  · next n _ _ =>
    obtain ⟨b, h⟩ := endCmd_frame d now n st res
    rw [h]
    exact (bus d b).trans (updCtx _ c _)
  · exact refl d

end CtxOnly

/-! What events and commands leave of every context. -/

theorem cx_raise (d : Dev) (p n c : Nat) : (d.raise p n).cx c = d.cx c := by
  obtain ⟨q, b, h⟩ := raise_eq d p n
  rw [h]
  rfl

theorem cx_raiseLog (d : Dev) (ts p n unit c : Nat) : (d.raiseLog ts p n unit).cx c = d.cx c := by
  obtain ⟨q, b, k, h⟩ := raiseLog_frame d ts p n unit 0 0 0
  rw [h]
  rfl

theorem cx_loadEnd (d : Dev) (now c st res : Nat) : ∃ l v, (d.loadEnd now c st res).cx c = { d.cx c with load := l, loadVals := v } := by
  unfold loadEnd
  split
  · next n _ _ =>
    obtain ⟨b, h⟩ := endCmd_frame d now n st res
    rw [cx_updCtx_same, h]
    exact ⟨_, _, rfl⟩
  · exact ⟨_, _, rfl⟩

/-- The count of a miss, and the results of its run dropped (R188). -/
def missed (d : Dev) (c : Nat) : Dev :=
  (((d.updCtx c (fun x => { x with ovr := min 3 (x.ovr + 1), ovrTotal := sat1 16 x.ovrTotal })).modLat
    (fun l => { l with ovrMap := setBit l.ovrMap c true })).raise 0x20 0).clearRun c false

/-- The third miss in a row is a FAULT (R190). -/
def missFault (d : Dev) (now c : Nat) : Dev :=
  (((d.updCtx c (fun x => { x with st := .fault, polDue := true })).raiseLog now 0x20 1 c).raise (ctxPage c) (ctxIdx c)).loadEnd now c stAborted

theorem overrun_eq (d : Dev) (now c : Nat) : d.overrun now c =
    if ((d.missed c).cx c).ovr < 3 then d.missed c else (d.missed c).missFault now c := rfl

theorem cx_ovrMap (d : Dev) (c x : Nat) : (d.modLat (fun l => { l with ovrMap := setBit l.ovrMap c true })).cx x = d.cx x := rfl

theorem cx_missed (d : Dev) (c : Nat) : (d.missed c).cx c = { d.cx c with
    ovr := min 3 ((d.cx c).ovr + 1), ovrTotal := sat1 16 (d.cx c).ovrTotal, ssat := false
    el := (d.cx c).el.map (fun p => (p.1, clearElem false p.2)) } := by
  unfold missed
  rw [clearRun_eq, cx_updCtx_same, cx_raise, cx_ovrMap, cx_updCtx_same]

theorem missed_only (d : Dev) (c : Nat) : CtxOnly c d (d.missed c) := by
  have hmap : ∀ d : Dev, CtxOnly c d (d.modLat (fun l => { l with ovrMap := setBit l.ovrMap c true })) :=
    fun d => ⟨rfl, rfl, rfl, fun x _ => cx_ovrMap d c x⟩
  exact (CtxOnly.updCtx d c _).trans ((hmap _).trans ((CtxOnly.raise _ 0x20 0).trans (CtxOnly.updCtx _ c _)))

theorem missFault_only (d : Dev) (now c : Nat) : CtxOnly c d (d.missFault now c) :=
  (CtxOnly.updCtx d c _).trans ((CtxOnly.raiseLog _ now 0x20 1 c 0 0 0).trans ((CtxOnly.raise _ _ _).trans (CtxOnly.loadEnd _ now c _ 0)))

theorem cx_missFault (d : Dev) (now c : Nat) : ∃ l v, (d.missFault now c).cx c =
    { d.cx c with st := .fault, polDue := true, load := l, loadVals := v } := by
  unfold missFault
  obtain ⟨l, v, h⟩ := cx_loadEnd (((d.updCtx c (fun x => { x with st := .fault, polDue := true })).raiseLog now 0x20 1 c).raise
    (ctxPage c) (ctxIdx c)) now c stAborted 0
  rw [h, cx_raise, cx_raiseLog, cx_updCtx_same]
  exact ⟨l, v, rfl⟩

/-- A context that misses its commit: its counts, and FAULT at the third in a row; its results stand (R188, R190). -/
theorem overrun_cx (d : Dev) (now c : Nat) :
    CtxOnly c d (d.overrun now c) ∧ ((d.overrun now c).cx c).el = (d.cx c).el.map (fun p => (p.1, clearElem false p.2)) ∧
      ((d.overrun now c).cx c).ovr = min 3 ((d.cx c).ovr + 1) ∧ ((d.overrun now c).cx c).ovrTotal = sat1 16 (d.cx c).ovrTotal ∧
      ((d.overrun now c).cx c).st = if (d.cx c).ovr < 2 then (d.cx c).st else .fault := by
  have hm := cx_missed d c
  have hthird : (((d.missed c).cx c).ovr < 3) ↔ (d.cx c).ovr < 2 := by
    rw [hm]
    change min 3 ((d.cx c).ovr + 1) < 3 ↔ _
    omega
  rw [overrun_eq]
  by_cases h : (d.cx c).ovr < 2
  · rw [if_pos (hthird.mpr h), hm, if_pos h]
    exact ⟨missed_only d c, rfl, rfl, rfl, rfl⟩
  · obtain ⟨l, v, hf⟩ := cx_missFault (d.missed c) now c
    rw [if_neg (mt hthird.mp h), hf, hm, if_neg h]
    exact ⟨(missed_only d c).trans (missFault_only _ now c), rfl, rfl, rfl, rfl⟩

section
variable {d : Dev} {now m c : Nat}

theorem commitRun_taken (hdue : d.dueAt c m = true) (hall : (List.range (d.nElem c)).all (fun e => (d.elem c e).done) = true) :
    commitRun now m d c = (d.updCtx c (fun x => { x with ovr := 0, sat := x.ssat })).clearRun c true := by
  unfold commitRun
  rw [if_neg (by simp [hdue]), if_pos hall]

theorem commitRun_missed (hdue : d.dueAt c m = true) (hall : (List.range (d.nElem c)).all (fun e => (d.elem c e).done) = false) :
    commitRun now m d c = d.overrun now c := by
  unfold commitRun
  rw [if_neg (by simp [hdue]), if_neg (by simp [hall])]

end

/-! Requests (R210 to R214). -/

/-- Only the elements of one context change. -/
theorem each_updElem_own (c : Nat) (f : Dev → Elem → Elem) (l : List Nat) (d : Dev) :
    CtxOnly c d (d.each l (fun d e => d.updElem c e (f d))) ∧ ∃ m, (d.each l (fun d e => d.updElem c e (f d))).cx c = { d.cx c with el := m } := by
  refine foldl_frame (R := fun d d' => CtxOnly c d d' ∧ ∃ m, d'.cx c = { d.cx c with el := m })
    (fun d => ⟨.refl d, _, rfl⟩) ?_ (fun d e => ⟨.updCtx d c _, _, cx_updCtx_same d c _⟩) l d
  rintro a b e ⟨hab, m, hm⟩ ⟨hbe, m', hm'⟩
  exact ⟨hab.trans hbe, m', by rw [hm', hm]⟩

/-- The state that a request leads to (Table 8.2). -/
def reqState (r : Nat) : CtxState := if r = 3 then .idle else if r = 1 then .opened else .closing

theorem takeReq_cx (d : Dev) (c r : Nat) : CtxOnly c d (d.takeReq c r) ∧ ((d.takeReq c r).cx c).st = reqState r ∧
    ((d.takeReq c r).cx c).req = (d.cx c).req ∧ ((d.takeReq c r).cx c).k = (d.cx c).k := by
  have hstep : ∀ (g : Ctx → Ctx) (f : Dev → Elem → Elem) (l : List Nat), (g (d.cx c)).st = reqState r → (g (d.cx c)).req = (d.cx c).req →
      (g (d.cx c)).k = (d.cx c).k → CtxOnly c d ((d.updCtx c g).each l (fun d e => d.updElem c e (f d))) ∧
        (((d.updCtx c g).each l (fun d e => d.updElem c e (f d))).cx c).st = reqState r ∧
        (((d.updCtx c g).each l (fun d e => d.updElem c e (f d))).cx c).req = (d.cx c).req ∧
        (((d.updCtx c g).each l (fun d e => d.updElem c e (f d))).cx c).k = (d.cx c).k := by
    intro g f l hst hreq hk
    obtain ⟨honly, m, hown⟩ := each_updElem_own c f l (d.updCtx c g)
    rw [hown, cx_updCtx_same]
    exact ⟨(CtxOnly.updCtx d c g).trans honly, hst, hreq, hk⟩
  unfold takeReq
  dsimp only
  split
  next h3 => exact hstep (fun x => { x with st := .idle, ovr := 0, zero := false }) _ _ (if_pos h3).symm rfl rfl
  next h3 =>
    split
    next h1 => exact hstep (fun x => { x with st := .opened }) _ _ ((if_neg h3).trans (if_pos h1)).symm rfl rfl
    next h1 => exact hstep (fun x => { x with st := .closing }) _ _ ((if_neg h3).trans (if_neg h1)).symm rfl rfl

end Dev

/-- Settles O58. -/
theorem contextCommitTakesOrMisses : Obligations.ContextCommitTakesOrMisses := by
  unfold Obligations.ContextCommitTakesOrMisses
  intro d now m c hlo hhi
  refine ⟨⟨fun hdue => ?_, fun hdue hall => ?_, fun hdue hall => ?_⟩, fun hr => ?_, fun hr hno => ?_, fun hr hok => ?_⟩
  · exact if_pos (by simp [hdue])
  · rw [Dev.commitRun_taken hdue hall]
    have hcx := Dev.cx_updCtx_same d c (fun x => { x with ovr := 0, sat := x.ssat })
    have hown : ((d.updCtx c (fun x => { x with ovr := 0, sat := x.ssat })).clearRun c true).cx c = { d.cx c with
        ovr := 0, sat := (d.cx c).ssat, ssat := false, el := (d.cx c).el.map (fun p => (p.1, clearElem true p.2)) } := by
      rw [Dev.clearRun_eq, Dev.cx_updCtx_same, hcx]
    refine ⟨by rw [hown], by rw [hown], rfl, rfl, fun e he => ?_, fun x hx => (Dev.cx_updCtx_ne hx).trans (Dev.cx_updCtx_ne hx)⟩
    have helem : (d.updCtx c (fun x => { x with ovr := 0, sat := x.ssat })).elem c e = d.elem c e := by
      unfold Dev.elem
      rw [hcx]
    have hdone : (d.elem c e).done = true := List.all_eq_true.mp hall e (List.mem_range.mpr he)
    rw [Dev.elem_clearRun_done (helem.symm ▸ hdone), helem]
    simp only [clearElem, hdone, Bool.and_self, if_true, and_self]
  · rw [Dev.commitRun_missed hdue hall]
    obtain ⟨honly, hel, hovr, htotal, hst⟩ := Dev.overrun_cx d now c
    refine ⟨honly.regs, honly.hull, fun e => ?_, hovr, htotal, hst, honly.cx⟩
    unfold Dev.elem
    rw [hel]
    rcases tget_map {} (clearElem false) (d.cx c).el e with hmap | ⟨hnone, hwas⟩
    · rw [hmap]
      exact ⟨rfl, rfl, rfl⟩
    · rw [hnone, hwas]
      exact ⟨rfl, rfl, rfl⟩
  · exact if_pos hr
  · exact (if_neg hr).trans (if_neg (by simp [hno]))
  · have htake : Dev.commitReq d c = (d.updCtx c (fun x => { x with req := 0 })).takeReq c (d.cx c).req :=
      (if_neg hr).trans (if_pos hok)
    obtain ⟨honly, hst, hreq, hk⟩ := Dev.takeReq_cx (d.updCtx c (fun x => { x with req := 0 })) c (d.cx c).req
    rw [Dev.cx_updCtx_same] at hreq hk
    rw [htake]
    exact ⟨hst, hreq, hk, honly.viol, honly.regs, fun x hx => (honly.cx x hx).trans (Dev.cx_updCtx_ne hx)⟩

end Sys2Proof.Machine
end

section
/-! Inputs, instances and the commit's index (R184, R186 to R188). -/

namespace Sys2Proof.Machine
namespace Dev

section
variable {d : Dev} {now c e : Nat}

/-- An input of a due element that has not latched latches its value; a stale one is counted (R184). -/
theorem doLatch_latches {i : Nat} {v : Int} {stale : Bool} (hlat : d.latOn = true) (hlo : 1 ≤ c) (hhi : c ≤ 63) (he : e < d.nElem c)
    (hdue : d.dueAt c (d.runM now) = true) (hrun : (d.elem c e).done = false) (hi : i < 8)
    (hfree : tget none (d.elem c e).inp i = none) (hsrc : bits (d.selOf c i) 15 12 ≠ 0)
    (hval : d.latchVal c e i (d.runM now) = some (v, stale)) :
    d.doLatch now c e i =
      if stale then ((d.updElem c e (fun x => { x with inp := tset none x.inp i (some v) })).updCtx c
        (fun x => { x with stale := sat1 8 x.stale })).raise 0x20 2
      else d.updElem c e (fun x => { x with inp := tset none x.inp i (some v) }) := by
  unfold doLatch
  dsimp only
  rw [if_neg (by simp [hlat, hdue, hrun, hfree, hsrc]; omega), hval]

/-- An element whose inputs have latched writes its shadow copies (R187, R188). -/
theorem doInstance_ends (hlat : d.latOn = true) (hlo : 1 ≤ c) (hhi : c ≤ 63) (he : e < d.nElem c)
    (hdue : d.dueAt c (d.runM now) = true) (hrun : (d.elem c e).done = false) (hin : d.latched c e = true) :
    d.doInstance now c e = (d.updElem c e (fun x => { x with
      done := true, sout := (d.runElem c e).1.out, sst := (d.runElem c e).1.st, sclamp := (d.runElem c e).1.clamp })).updCtx c
        (fun x => { x with ssat := x.ssat || (d.runElem c e).2 }) := by
  unfold doInstance
  rw [if_neg (by simp [hlat, hdue, hrun, hin]; omega)]

end

/-- What a context's other registers leave of its elements. -/
theorem elem_updCtx_of_el {d : Dev} {c : Nat} {f : Ctx → Ctx} (hf : ∀ x, (f x).el = x.el) (e : Nat) :
    (d.updCtx c f).elem c e = d.elem c e := by
  unfold elem
  rw [cx_updCtx_same, hf]

theorem elem_raise (d : Dev) (p n c e : Nat) : (d.raise p n).elem c e = d.elem c e := by
  unfold elem
  rw [cx_raise]

theorem cx_updElem_same (d : Dev) (c e : Nat) (f : Elem → Elem) :
    (d.updElem c e f).cx c = { d.cx c with el := tupd {} (d.cx c).el e f } := cx_updCtx_same d c _

/-- What a latched input leaves (R184): its element holds it, and a stale one is counted. -/
theorem latched_parts (d : Dev) (c e i : Nat) (v : Int) (stale : Bool) :
    let t := if stale then ((d.updElem c e (fun x => { x with inp := tset none x.inp i (some v) })).updCtx c
        (fun x => { x with stale := sat1 8 x.stale })).raise 0x20 2
      else d.updElem c e (fun x => { x with inp := tset none x.inp i (some v) })
    CtxOnly c d t ∧ t.elem c e = { d.elem c e with inp := tset none (d.elem c e).inp i (some v) } ∧
      (∀ f, f ≠ e → t.elem c f = d.elem c f) ∧ (t.cx c).stale = if stale then sat1 8 (d.cx c).stale else (d.cx c).stale := by
  have hheld : CtxOnly c d (d.updElem c e (fun x => { x with inp := tset none x.inp i (some v) })) := CtxOnly.updCtx d c _
  cases stale with
  | false => exact ⟨hheld, elem_updElem_same .., fun f hf => elem_updElem_ne hf, by
      rw [if_neg (by decide), if_neg (by decide), cx_updElem_same]⟩
  | true =>
    refine ⟨hheld.trans ((CtxOnly.updCtx _ c _).trans (CtxOnly.raise _ 0x20 2)), ?_, fun f hf => ?_, ?_⟩
    · rw [if_pos rfl, elem_raise]
      refine (elem_updCtx_of_el (fun _ => ?_) e).trans (elem_updElem_same ..)
      rfl
    · rw [if_pos rfl, elem_raise]
      refine (elem_updCtx_of_el (fun _ => ?_) f).trans (elem_updElem_ne hf)
      rfl
    · rw [if_pos rfl, if_pos rfl, cx_raise, cx_updCtx_same, cx_updElem_same]

theorem lat_firstLowest (d old : Dev) : (d.firstLowest old).lat = d.lat := by
  unfold firstLowest
  split
  · split <;> rfl
  · rfl

theorem pidx_decTurn (d : Dev) (m : Nat) : (d.decTurn m).lat.pidx = d.lat.pidx ∧ (d.decTurn m).lat.ran = d.lat.ran := by
  unfold decTurn
  split
  · exact ⟨rfl, rfl⟩
  · exact ⟨rfl, rfl⟩

/-- A commit carries its period's index on (R188). -/
theorem pidx_doCommit {d : Dev} (now m : Nat) (mis : List Mismatch) (h : d.latOn = true) :
    (d.doCommit now m mis).lat.pidx = m ∧ (d.doCommit now m mis).lat.ran = true := by
  unfold doCommit
  rw [if_neg (by simp [h])]
  dsimp only
  rw [lat_firstLowest]
  obtain ⟨hp, hr⟩ := pidx_decTurn (Dev.modLat _ (fun l => { l with pidx := m, ran := true })) m
  exact ⟨hp, hr⟩

end Dev

/-- Settles O57. -/
theorem inputsLatchAndInstancesRun : Obligations.InputsLatchAndInstancesRun := by
  unfold Obligations.InputsLatchAndInstancesRun
  intro c e i m v stale mis s hlat
  refine ⟨fun hlo hhi he hdue hrun => ⟨fun hi hfree hsrc hval => ?_, fun hin => ?_⟩, ?_⟩
  · obtain ⟨honly, helem, hothers, hstale⟩ := Dev.latched_parts s.dev c e i v stale
    have hout := congrArg (fun x : Elem => x.out) helem
    have hst := congrArg (fun x : Elem => x.st) helem
    refine ⟨_, next_withDev (Dev.doLatch_latches hlat hlo hhi he hdue hrun hi hfree hsrc hval), rfl, rfl, rfl, honly.regs, honly.hull,
      fun j => ?_, hout, hst, hstale, hothers, honly.cx⟩
    refine (congrArg (fun x : Elem => tget none x.inp j) helem).trans ?_
    by_cases hj : j = i
    · subst hj
      exact (tget_tset_same ..).trans (if_pos rfl).symm
    · exact (tget_tset_ne _ _ _ _ _ _ hj).trans (if_neg hj).symm
  · refine ⟨_, next_withDev (Dev.doInstance_ends hlat hlo hhi he hdue hrun hin), rfl, rfl, rfl, rfl, rfl, ?_, ?_, fun f hf => ?_, fun x hx => ?_⟩
    · exact (Dev.elem_updCtx_of_el (f := fun x => { x with ssat := x.ssat || (s.dev.runElem c e).2 }) (fun _ => rfl) e).trans (Dev.elem_updElem_same ..)
    · exact congrArg Ctx.ssat ((Dev.cx_updCtx_same ..).trans (congrArg _ (Dev.cx_updElem_same ..)))
    · exact (Dev.elem_updCtx_of_el (f := fun x => { x with ssat := x.ssat || (s.dev.runElem c e).2 }) (fun _ => rfl) f).trans (Dev.elem_updElem_ne hf)
    · exact (Dev.cx_updCtx_ne hx).trans (Dev.cx_updElem_ne hx)
  · obtain ⟨hidx, hran⟩ := Dev.pidx_doCommit s.now m mis hlat
    exact ⟨s.withDev (s.dev.doCommit s.now m mis), rfl, rfl, rfl, rfl, hidx, hran⟩

end Sys2Proof.Machine
end

section
/-! The measurement clock and the channels (R268, R271 to R275, R277, R282, R283, R286, R303). -/

namespace Sys2Proof.Machine
namespace Dev

/-- The channels change and commands end: registers, Hull, the wavefront path and the clock's own state stand. -/
structure ClockStands (d d' : Dev) : Prop where
  regs : d'.regs = d.regs
  hull : d'.hull = d.hull
  wave : d'.wave = d.wave
  acq : d'.prism.acq = d.prism.acq
  loss : d'.prism.loss = d.prism.loss
  range : d'.prism.range = d.prism.range
  pbar : d'.prism.pbar = d.prism.pbar

namespace ClockStands

theorem refl (d : Dev) : ClockStands d d := ⟨rfl, rfl, rfl, rfl, rfl, rfl, rfl⟩

theorem trans {a b c : Dev} (h : ClockStands a b) (h' : ClockStands b c) : ClockStands a c :=
  ⟨h'.regs.trans h.regs, h'.hull.trans h.hull, h'.wave.trans h.wave, h'.acq.trans h.acq, h'.loss.trans h.loss,
    h'.range.trans h.range, h'.pbar.trans h.pbar⟩

theorem ite {d a b : Dev} {c : Prop} [Decidable c] (ha : ClockStands d a) (hb : ClockStands d b) :
    ClockStands d (if c then a else b) := by
  split
  · exact ha
  · exact hb

theorem updChan (d : Dev) (k : Nat) (f : Chan → Chan) : ClockStands d (d.updChan k f) := ⟨rfl, rfl, rfl, rfl, rfl, rfl, rfl⟩
theorem drawFree (d : Dev) : ClockStands d d.drawFree.2 := ⟨rfl, rfl, rfl, rfl, rfl, rfl, rfl⟩

theorem raise (d : Dev) (p n : Nat) : ClockStands d (d.raise p n) := by
  obtain ⟨q, b, h⟩ := raise_eq d p n
  rw [h]
  exact ⟨rfl, rfl, rfl, rfl, rfl, rfl, rfl⟩

theorem endCmd (d : Dev) (now n st res : Nat) : ClockStands d (d.endCmd now n st res) := by
  obtain ⟨b, h⟩ := endCmd_frame d now n st res
  rw [h]
  exact ⟨rfl, rfl, rfl, rfl, rfl, rfl, rfl⟩

end ClockStands

theorem chan_endCmd (d : Dev) (now n st res k : Nat) : (d.endCmd now n st res).chan k = d.chan k := by
  obtain ⟨b, h⟩ := endCmd_frame d now n st res
  rw [h]
  rfl

/-- The commands that a channel's loss of its outputs ends (R283). -/
def quietEnds (d : Dev) (now k : Nat) : Dev :=
  let c := d.chan k
  let due := c.wait.filterMap (·.done)
  let d := d.each (due ++ (match c.fade with
    | some f => if due.contains f.slot then [] else [f.slot]
    | none => [])) (fun d n => d.endCmd now n stDone)
  match c.pend with
  | some (n, _, _) => d.endCmd now n stAborted
  | none => d

theorem quietEnds_stands (d : Dev) (now k : Nat) : ClockStands d (d.quietEnds now k) ∧ ∀ j, (d.quietEnds now k).chan j = d.chan j := by
  have hends : ∀ l : List Nat, ClockStands d (d.each l (fun d n => d.endCmd now n stDone)) ∧
      ∀ j, (d.each l (fun d n => d.endCmd now n stDone)).chan j = d.chan j := by
    intro l
    refine foldl_frame (R := fun d d' => ClockStands d d' ∧ ∀ j, d'.chan j = d.chan j) (fun d => ⟨.refl d, fun _ => rfl⟩) ?_
      (fun d n => ⟨.endCmd d now n stDone 0, fun j => chan_endCmd d now n stDone 0 j⟩) l d
    rintro a b c ⟨h, hc⟩ ⟨h', hc'⟩
    exact ⟨h.trans h', fun j => (hc' j).trans (hc j)⟩
  unfold quietEnds
  dsimp only
  obtain ⟨h, hc⟩ := hends ((d.chan k).wait.filterMap (·.done) ++ (match (d.chan k).fade with
    | some f => if ((d.chan k).wait.filterMap (·.done)).contains f.slot then [] else [f.slot]
    | none => []))
  split
  · exact ⟨h.trans (.endCmd _ now _ _ 0), fun j => (chan_endCmd ..).trans (hc j)⟩
  · exact ⟨h, hc⟩

theorem chanQuiet_eq (d : Dev) (now k : Nat) (st : ChanState) : ∃ f past, d.chanQuiet now k st =
    (d.quietEnds now k).drawFree.2.updChan k (fun c => { c with
      past := past, st := st, c0 := none, fade := none, pend := none
      now := match c.fade with
        | some f => f.dst
        | none => c.now
      wait := [], valid := false, out := { val := 0, stamp := Config.freeNat f % 2 ^ 68 }
      pub := [], nPub := 0, nOut := 0, ta := {}, tb := {}, tr := {} }) := ⟨_, _, rfl⟩

/-- A channel that loses its outputs: they, its fade and its pending swap are gone, and no other channel changes (R283). -/
theorem chanQuiet_parts (d : Dev) (now k : Nat) (st : ChanState) : ClockStands d (d.chanQuiet now k st) ∧
    (∀ j, j ≠ k → (d.chanQuiet now k st).chan j = d.chan j) ∧ ((d.chanQuiet now k st).chan k).st = st ∧
    ((d.chanQuiet now k st).chan k).valid = false ∧ ((d.chanQuiet now k st).chan k).wait = [] ∧
    ((d.chanQuiet now k st).chan k).fade = none ∧ ((d.chanQuiet now k st).chan k).pend = none := by
  obtain ⟨hstands, hchan⟩ := quietEnds_stands d now k
  obtain ⟨f, past, h⟩ := chanQuiet_eq d now k st
  rw [h, chan_updChan_same]
  exact ⟨hstands.trans ((ClockStands.drawFree _).trans (.updChan _ k _)), fun j hj => (chan_updChan_ne hj).trans (hchan j), rfl, rfl, rfl,
    rfl, rfl⟩

theorem chanStart_parts (d : Dev) (now k : Nat) : ClockStands d (d.chanStart now k) ∧
    (∀ j, j ≠ k → (d.chanStart now k).chan j = d.chan j) ∧
    ((d.chanStart now k).chan k).st = if (d.chan k).st = .waitClk then .restarting else .starting := by
  unfold chanStart
  refine ⟨(ClockStands.updChan d k _).trans (.updChan _ k _), fun j hj => (chan_updChan_ne hj).trans (chan_updChan_ne hj), ?_⟩
  rw [chan_updChan_same, chan_updChan_same]
  simp only [beq_iff_eq]

/-- A walk over channels that changes each by itself: what holds of one step holds of the channel's part. -/
theorem each_chan {P : Chan → Chan → Prop} {g : Dev → Nat → Dev} (hown : ∀ d k, P (d.chan k) ((g d k).chan k))
    (hother : ∀ d k j, j ≠ k → (g d k).chan j = d.chan j) {l : List Nat} (hl : l.Nodup) (d : Dev) {k : Nat} (hk : k ∈ l) :
    P (d.chan k) ((d.each l g).chan k) := by
  have hout : ∀ (l : List Nat) (d : Dev), k ∉ l → (d.each l g).chan k = d.chan k := by
    intro l
    induction l with
    | nil => exact fun _ _ => rfl
    | cons x r ih =>
      intro d hx
      rw [List.mem_cons, not_or] at hx
      exact (ih (g d x) hx.2).trans (hother d x k hx.1)
  induction l generalizing d with
  | nil => cases hk
  | cons x r ih =>
    obtain ⟨hx, hr⟩ := List.nodup_cons.mp hl
    by_cases hkx : k = x
    · subst hkx
      have h := hown d k
      rw [← hout r (g d k) hx] at h
      exact h
    · have h := ih hr (g d x) ((List.mem_cons.mp hk).resolve_left hkx)
      rw [hother d x k hkx] at h
      exact h

/-- Every waiting channel restarts, and no other changes its state (R268, R282). -/
theorem chansResume_parts (d : Dev) (now : Nat) : ClockStands d (d.chansResume now) ∧
    ∀ k, k < 16 → ((d.chansResume now).chan k).st = if (d.chan k).st = .waitClk then .restarting else (d.chan k).st := by
  refine ⟨foldl_frame .refl .trans (fun d k => .ite (chanStart_parts d now k).1 (.refl d)) _ d, fun k hk => ?_⟩
  refine each_chan (P := fun c c' => c'.st = if c.st = .waitClk then .restarting else c.st)
    (g := fun d k => if (d.chan k).st == .waitClk then d.chanStart now k else d) (fun d k => ?_) (fun d k j hj => ?_) List.nodup_range d
    (List.mem_range.mpr hk)
  · by_cases hw : (d.chan k).st = .waitClk
    · rw [if_pos (by simp [hw]), if_pos hw, (chanStart_parts d now k).2.2, if_pos hw]
    · rw [if_neg (by simp [hw]), if_neg hw]
  · split
    · exact (chanStart_parts d now k).2.1 j hj
    · rfl

/-- What a channel is after the loss of the clock (R283). -/
def Waits (c c' : Chan) : Prop :=
  (c'.st = if c.st = .stopped then .stopped else .waitClk) ∧
    (c.st ≠ .stopped → c.st ≠ .waitClk → c'.valid = false ∧ c'.wait = [] ∧ c'.fade = none ∧ c'.pend = none)

/-- Every channel that is not STOPPED waits, its outputs gone (R268, R283). -/
theorem chansWait_parts (d : Dev) (now : Nat) : ClockStands d (d.chansWait now) ∧
    ∀ k, k < 16 → Waits (d.chan k) ((d.chansWait now).chan k) := by
  refine ⟨foldl_frame .refl .trans (fun d k => .ite (.refl d) (chanQuiet_parts d now k .waitClk).1) _ d, fun k hk => ?_⟩
  refine each_chan (P := Waits)
    (g := fun d k => if (d.chan k).st == .stopped || (d.chan k).st == .waitClk then d else d.chanQuiet now k .waitClk)
    (fun d k => ?_) (fun d k j hj => ?_) List.nodup_range d (List.mem_range.mpr hk)
  · obtain ⟨-, -, hst, hvalid, hwait, hfade, hpend⟩ := chanQuiet_parts d now k .waitClk
    unfold Waits
    by_cases hs : (d.chan k).st = .stopped
    · rw [if_pos (by simp [hs]), if_pos hs]
      exact ⟨hs, fun h => absurd hs h⟩
    · by_cases hw : (d.chan k).st = .waitClk
      · rw [if_pos (by simp [hw]), if_neg hs]
        exact ⟨hw, fun _ h => absurd hw h⟩
      · rw [if_neg (by simp [hs, hw]), if_neg hs]
        exact ⟨hst, fun _ _ => ⟨hvalid, hwait, hfade, hpend⟩⟩
  · split
    · rfl
    · exact (chanQuiet_parts d now k .waitClk).2.1 j hj

/-- The wavefront path waits or resumes; the channels and the clock are not its own (R303). -/
theorem waveWait_parts (d : Dev) : (d.waveWait).regs = d.regs ∧ d.waveWait.hull = d.hull ∧ d.waveWait.prism = d.prism ∧
    d.waveWait.wave.running = false ∧ (d.wave.running = true → d.waveWait.wave.waitClk = true) := by
  unfold waveWait
  split
  next h =>
    obtain ⟨q, b, hr⟩ := raise_eq (d.modWave (fun w => { w with running := false, waitClk := true })) 0x2B 1
    rw [hr]
    exact ⟨rfl, rfl, rfl, rfl, fun _ => rfl⟩
  next h => exact ⟨rfl, rfl, rfl, by simpa using h, fun hr => absurd hr h⟩

theorem waveResume_parts (d : Dev) : d.waveResume.regs = d.regs ∧ d.waveResume.hull = d.hull ∧ d.waveResume.prism = d.prism ∧
    (d.wave.waitClk = true → d.waveResume.wave.running = true ∧ d.waveResume.wave.skip = 3) := by
  unfold waveResume
  split
  next h => exact ⟨rfl, rfl, rfl, fun _ => ⟨rfl, rfl⟩⟩
  next h => exact ⟨rfl, rfl, rfl, fun hr => absurd hr h⟩

theorem chan_congr {d e : Dev} (h : e.prism = d.prism) (k : Nat) : e.chan k = d.chan k := by
  unfold chan
  rw [h]

/-- The clock is acquired: LOSS and RANGE read 0, and what waits starts (R268, R282, R303). -/
theorem doClkAcq_parts {d : Dev} (now : Nat) (m : EdgeMean) (hdom : d.domOn 5 = true) (hmode : d.clkMode = 2) (hacq : d.prism.acq = false) :
    (d.doClkAcq now m).prism.acq = true ∧ (d.doClkAcq now m).prism.loss = false ∧ (d.doClkAcq now m).prism.range = false ∧
      (d.doClkAcq now m).prism.pbar = m ∧ (d.doClkAcq now m).regs = d.regs ∧ (d.doClkAcq now m).hull = d.hull ∧
      (∀ k, k < 16 → ((d.doClkAcq now m).chan k).st = if (d.chan k).st = .waitClk then .restarting else (d.chan k).st) ∧
      (d.wave.waitClk = true → (d.doClkAcq now m).wave.running = true ∧ (d.doClkAcq now m).wave.skip = 3) := by
  have hdo : d.doClkAcq now m =
      ((d.modPrism (fun p => { p with acq := true, loss := false, range := false, pbar := m })).chansResume now).waveResume :=
    if_neg (by simp [hdom, hmode, hacq])
  obtain ⟨hstands, hst⟩ := chansResume_parts (d.modPrism (fun p => { p with acq := true, loss := false, range := false, pbar := m })) now
  obtain ⟨hregs, hhull, hprism, hwave⟩ := waveResume_parts
    ((d.modPrism (fun p => { p with acq := true, loss := false, range := false, pbar := m })).chansResume now)
  rw [hdo]
  refine ⟨by rw [hprism, hstands.acq]; rfl, by rw [hprism, hstands.loss]; rfl, by rw [hprism, hstands.range]; rfl, by rw [hprism, hstands.pbar]; rfl,
    hregs.trans hstands.regs, hhull.trans hstands.hull, fun k hk => ?_, fun hw => hwave (by rw [hstands.wave]; exact hw)⟩
  rw [chan_congr hprism]
  exact hst k hk

/-- What the end of the acquisition leaves (R268, R283, R303). -/
structure ClockGone (d t : Dev) : Prop where
  acq : t.prism.acq = false
  regs : t.regs = d.regs
  hull : t.hull = d.hull
  chan : ∀ k, k < 16 → Waits (d.chan k) (t.chan k)
  running : t.wave.running = false
  waitClk : d.wave.running = true → t.wave.waitClk = true

theorem clockGone {d e : Dev} (now : Nat) (hregs : e.regs = d.regs) (hhull : e.hull = d.hull) (hwave : e.wave = d.wave)
    (hacq : e.prism.acq = false) (hchan : ∀ k, e.chan k = d.chan k) :
    ClockGone d (e.chansWait now).waveWait ∧ (e.chansWait now).waveWait.prism.loss = e.prism.loss ∧
      (e.chansWait now).waveWait.prism.range = e.prism.range := by
  obtain ⟨hstands, hwaits⟩ := chansWait_parts e now
  obtain ⟨hr, hh, hp, hrun, hclk⟩ := waveWait_parts (e.chansWait now)
  refine ⟨⟨by rw [hp, hstands.acq, hacq], (hr.trans hstands.regs).trans hregs, (hh.trans hstands.hull).trans hhull, fun k hk => ?_, hrun,
    fun hd => hclk (by rw [hstands.wave, hwave]; exact hd)⟩, by rw [hp, hstands.loss], by rw [hp, hstands.range]⟩
  rw [chan_congr hp, ← hchan]
  exact hwaits k hk

/-- A loss, or a period out of range (R268). -/
theorem doClkFault_parts {d : Dev} (now : Nat) (isLoss : Bool) (hdom : d.domOn 5 = true) (hmode : d.clkMode = 2) :
    ClockGone d (d.doClkFault now isLoss) ∧ (isLoss = true → (d.doClkFault now isLoss).prism.loss = true) ∧
      (isLoss = false → (d.doClkFault now isLoss).prism.range = true) := by
  have hnot : ¬((!d.domOn 5 || d.clkMode != 2) = true) := by simp [hdom, hmode]
  cases isLoss with
  | true =>
    obtain ⟨q, b, h⟩ := raise_eq (d.modPrism (fun p => { p with acq := false, loss := true })) 0x28 5
    obtain ⟨hgone, hloss, -⟩ := clockGone (d := d) (e := (d.modPrism (fun p => { p with acq := false, loss := true })).raise 0x28 5) now
      (by rw [h]; rfl) (by rw [h]; rfl) (by rw [h]; rfl) (by rw [h]; rfl) (fun k => by rw [h]; rfl)
    have hdo : d.doClkFault now true =
        (((d.modPrism (fun p => { p with acq := false, loss := true })).raise 0x28 5).chansWait now).waveWait := if_neg hnot
    rw [hdo]
    exact ⟨hgone, fun _ => hloss.trans (by rw [h]; rfl), fun h => Bool.noConfusion h⟩
  | false =>
    obtain ⟨q, b, h⟩ := raise_eq (d.modPrism (fun p => { p with acq := false, range := true })) 0x28 6
    obtain ⟨hgone, -, hrange⟩ := clockGone (d := d) (e := (d.modPrism (fun p => { p with acq := false, range := true })).raise 0x28 6) now
      (by rw [h]; rfl) (by rw [h]; rfl) (by rw [h]; rfl) (by rw [h]; rfl) (fun k => by rw [h]; rfl)
    have hdo : d.doClkFault now false =
        (((d.modPrism (fun p => { p with acq := false, range := true })).raise 0x28 6).chansWait now).waveWait := if_neg hnot
    rw [hdo]
    exact ⟨hgone, fun h => Bool.noConfusion h, fun _ => hrange.trans (by rw [h]; rfl)⟩

end Dev

/-- Settles O51. -/
theorem measurementClockEventsAct : Obligations.MeasurementClockEventsAct := by
  unfold Obligations.MeasurementClockEventsAct
  refine fun pbar s hdom hmode => ⟨fun hacq => ⟨s.withDev (s.dev.doClkAcq s.now pbar), rfl, rfl, rfl, rfl,
    Dev.doClkAcq_parts s.now pbar hdom hmode hacq⟩, fun e he => ?_⟩
  rcases he with rfl | rfl
  · obtain ⟨hgone, hloss, -⟩ := Dev.doClkFault_parts s.now true hdom hmode
    exact ⟨s.withDev (s.dev.doClkFault s.now true), rfl, rfl, rfl, rfl, hgone.acq, fun _ => hloss rfl, fun h => absurd h (by simp), hgone.regs,
      hgone.hull, fun k hk => (hgone.chan k hk).1, fun k hk => (hgone.chan k hk).2, hgone.running, hgone.waitClk⟩
  · obtain ⟨hgone, -, hrange⟩ := Dev.doClkFault_parts s.now false hdom hmode
    exact ⟨s.withDev (s.dev.doClkFault s.now false), rfl, rfl, rfl, rfl, hgone.acq, fun h => absurd h (by simp), fun _ => hrange rfl, hgone.regs,
      hgone.hull, fun k hk => (hgone.chan k hk).1, fun k hk => (hgone.chan k hk).2, hgone.running, hgone.waitClk⟩

end Sys2Proof.Machine
end

section
/-! The outputs of a channel: CIC, FIR and publication (R271 to R277, R282, R285 to R290). -/

namespace Sys2Proof.Machine
namespace Dev

theorem c0Ok_of {d : Dev} {now k c : Nat} (hdom : d.domOn 5 = true) (hclk : d.clkOk = true)
    (hst : (d.chan k).st = .starting ∨ (d.chan k).st = .restarting) (hstart : (d.chan k).start ≤ now)
    (hgrid : ((c : Int) - k) % (d.outClks k : Int) = 0) (hc0 : (d.chan k).c0 = none ∨ (d.chan k).c0 = some c) :
    d.c0Ok now k c = true := by
  have hstate : ((d.chan k).st == .starting || (d.chan k).st == .restarting) = true := by
    rcases hst with h | h <;> simp [h]
  unfold c0Ok
  rcases hc0 with h | h <;> simp [hdom, hclk, hstate, hstart, hgrid, h]

/-! One channel alone changes: registers and banks stand, and no other channel changes. -/

structure OwnChan (k : Nat) (d d' : Dev) : Prop where
  regs : d'.regs = d.regs
  bank : d'.prism.bank = d.prism.bank
  others : ∀ j, j ≠ k → d'.chan j = d.chan j

namespace OwnChan
variable {k : Nat}

theorem refl (d : Dev) : OwnChan k d d := ⟨rfl, rfl, fun _ _ => rfl⟩

theorem trans {a b c : Dev} (h : OwnChan k a b) (h' : OwnChan k b c) : OwnChan k a c :=
  ⟨h'.regs.trans h.regs, h'.bank.trans h.bank, fun j hj => (h'.others j hj).trans (h.others j hj)⟩

theorem updChan (d : Dev) (k : Nat) (f : Chan → Chan) : OwnChan k d (d.updChan k f) := ⟨rfl, rfl, fun _ hj => chan_updChan_ne hj⟩

theorem raise (d : Dev) (p n : Nat) : OwnChan k d (d.raise p n) := by
  obtain ⟨q, b, h⟩ := raise_eq d p n
  rw [h]
  exact ⟨rfl, rfl, fun _ _ => rfl⟩

theorem chanSat (d : Dev) (k : Nat) : OwnChan k d (d.chanSat k) := (updChan d k _).trans (raise _ 0x28 4)

theorem ofPrism {d e : Dev} (hr : e.regs = d.regs) (hp : e.prism = d.prism) : OwnChan k d e :=
  ⟨hr, congrArg Prism.bank hp, fun j _ => chan_congr hp j⟩

end OwnChan

/-- A saturation is counted, and no more of a channel changes. -/
theorem chan_chanSat (d : Dev) (k : Nat) : ∃ s, (d.chanSat k).chan k = { d.chan k with sat := s } :=
  ⟨_, (chan_raise ..).trans (chan_updChan_same ..)⟩

/-- A CIC output that is one (R271 to R273). -/
theorem doCic_parts {d : Dev} {k c : Nat} {bs : List Bool} (hact : d.active k = true) (hpast : d.pastC0 k c = true)
    (hlen : bs.length = d.chRc k) (hgrid : ((c : Int) - k) % (d.chRc k : Int) = 0) :
    let x := d.chan k
    let line := bs.reverse ++ x.line
    let i := ((line.drop (d.chDly k)).take bs.length).reverse.foldl cicBit (x.i1, x.i2, x.i3)
    let c1 := i.2.2 - x.p3
    let c2 := c1 - x.p1
    OwnChan k d (d.doCic k c bs) ∧ ∃ s, (d.doCic k c bs).chan k = { x with
      line := line.take 1023, i1 := i.1, i2 := i.2.1, i3 := i.2.2, p3 := i.2.2, p1 := c1, p2 := c2
      hist := satI 24 (cicScale (d.chLg k) (c2 - x.p2).toInt) :: x.hist.take 383, sat := s } := by
  intro x line i c1 c2
  have hdo : d.doCic k c bs =
      (let e := d.updChan k (fun h => { h with
        line := line.take 1023, i1 := i.1, i2 := i.2.1, i3 := i.2.2, p3 := i.2.2, p1 := c1, p2 := c2
        hist := satI 24 (cicScale (d.chLg k) (c2 - x.p2).toInt) :: h.hist.take 383 })
       if satI 24 (cicScale (d.chLg k) (c2 - x.p2).toInt) = cicScale (d.chLg k) (c2 - x.p2).toInt then e else e.chanSat k) :=
    if_neg (by simp [hact, hpast, hlen, hgrid])
  rw [hdo]
  dsimp only
  split
  · exact ⟨OwnChan.updChan d k _, (d.chan k).sat, chan_updChan_same ..⟩
  · obtain ⟨s, hs⟩ := chan_chanSat (d.updChan k (fun h => { h with
        line := line.take 1023, i1 := i.1, i2 := i.2.1, i3 := i.2.2, p3 := i.2.2, p1 := c1, p2 := c2
        hist := satI 24 (cicScale (d.chLg k) (c2 - x.p2).toInt) :: h.hist.take 383 })) k
    rw [chan_updChan_same] at hs
    exact ⟨(OwnChan.updChan d k _).trans (OwnChan.chanSat _ k), s, hs⟩

/-! FIR outputs. -/

/-- One channel's saturations are counted and the mean period may be noted; no more changes. -/
structure SatOnly (k : Nat) (d d' : Dev) : Prop where
  own : OwnChan k d d'
  chan : ∃ s, d'.chan k = { d.chan k with sat := s }

namespace SatOnly
variable {k : Nat} {d e : Dev}

theorem refl (d : Dev) : SatOnly k d d := ⟨.refl d, (d.chan k).sat, rfl⟩

theorem trans {a b c : Dev} (h : SatOnly k a b) (h' : SatOnly k b c) : SatOnly k a c := by
  obtain ⟨s, hs⟩ := h.chan
  obtain ⟨s', hs'⟩ := h'.chan
  exact ⟨h.own.trans h'.own, s', by rw [hs', hs]⟩

theorem rd (h : SatOnly k d e) (p o : Nat) : e.rd p o = d.rd p o := by
  unfold Dev.rd
  rw [h.own.regs]

theorem respOf (h : SatOnly k d e) (aux : Bool) (r : Nat) : e.respOf aux r = d.respOf aux r := by
  unfold Dev.respOf bankOf
  rw [h.own.bank]

theorem chAux (h : SatOnly k d e) (j : Nat) : e.chAux j = d.chAux j := congrArg (fun w => bit w 20) (h.rd 0x28 (0x104 + 0x20 * j))

theorem respNow (h : SatOnly k d e) : e.respNow k = d.respNow k := by
  obtain ⟨s, hs⟩ := h.chan
  unfold Dev.respNow
  rw [hs]
  dsimp only
  rw [show e.chResp k = d.chResp k from congrArg (fun w => bits w 3 0) (h.rd 0x28 (0x104 + 0x20 * k))]

theorem settleN (h : SatOnly k d e) : e.settleN k = d.settleN k := by
  unfold Dev.settleN
  rw [h.respNow, h.chAux, h.respOf]

theorem outStamp (h : SatOnly k d e) (c ts : Nat) (m : EdgeMean) : e.outStamp k c ts m = d.outStamp k c ts m := by
  have hrc : e.chRc k = d.chRc k := congrArg (fun w => 2 ^ (4 + bits w 18 16)) (h.rd 0x28 (0x104 + 0x20 * k))
  have hdly : e.chDly k = d.chDly k := congrArg (fun w => bits w 9 0) (h.rd 0x28 (0x108 + 0x20 * k))
  have hmode : e.clkMode = d.clkMode := congrArg (fun w => bits w 17 16) (h.rd 0x28 0x20)
  have hper : e.clkPer = d.clkPer := congrArg (fun w => bits w 6 0) (h.rd 0x28 0x20)
  unfold Dev.outStamp gdHalf
  rw [hrc, hdly, hmode, hper, h.respNow, h.chAux, h.respOf]

theorem noteMean (d : Dev) (k : Nat) (m : EdgeMean) : SatOnly k d (d.noteMean m) := by
  unfold Dev.noteMean
  split
  · exact ⟨⟨rfl, rfl, fun _ _ => rfl⟩, _, rfl⟩
  · exact refl d

theorem firOne (d : Dev) (k r : Nat) : SatOnly k d (d.firOne k r).2 := by
  unfold Dev.firOne
  dsimp only
  split
  · exact refl d
  · exact ⟨.chanSat d k, chan_chanSat d k⟩

end SatOnly

/-- The FIR result of a response on a channel's history (R274). -/
def firVal (d : Dev) (k r : Nat) : Int := satI 24 (firSum (d.respOf (d.chAux k) r).coef (d.chan k).hist)

theorem firOne_val {d e : Dev} {k : Nat} (h : SatOnly k d e) (r : Nat) : (e.firOne k r).1 = d.firVal k r := by
  obtain ⟨s, hs⟩ := h.chan
  unfold firOne firVal
  dsimp only
  rw [h.respOf, h.chAux, hs]

/-- What waits after an output, where enough have been suppressed (R282). -/
def waitWith (d : Dev) (k c ts : Nat) (m : EdgeMean) (v : Int) (done : Option Nat) : List POut :=
  if d.settleN k ≤ (d.chan k).nOut then (d.chan k).wait ++ [({ val := v, stamp := d.outStamp k c ts m, done := done } : POut)]
  else (d.chan k).wait

section
variable {d : Dev} {now k c ts : Nat} {m : EdgeMean}

/-- A fade that goes on, or none with no swap pending, stays (R287). -/
theorem fadeTurn_none (hf : (d.chan k).fade = none) (hp : (d.chan k).pend = none) : d.fadeTurn now k = d := by
  simp [fadeTurn, hf, hp]

theorem fadeTurn_on {f : Fade} (hf : (d.chan k).fade = some f) (hn : f.n < f.len) : d.fadeTurn now k = d := by
  simp [fadeTurn, hf, not_le.mpr hn]

/-- The FIR output of a channel that does not fade (R274, R275, R282). -/
theorem doFir_steady (hact : d.active k = true) (hpast : d.pastC0 k c = true) (hgrid : ((c : Int) - k) % (d.outClks k : Int) = 0)
    (hpend : (d.chan k).pend = none) (hfade : (d.chan k).fade = none) :
    OwnChan k d (d.doFir now k c ts m) ∧ ∃ s, (d.doFir now k c ts m).chan k = { d.chan k with
      sat := s, nOut := (d.chan k).nOut + 1, wait := d.waitWith k c ts m (d.firVal k (d.chan k).now) none } := by
  have hnote := SatOnly.noteMean d k m
  obtain ⟨s0, hs0⟩ := hnote.chan
  have hturn : (d.noteMean m).fadeTurn now k = d.noteMean m := fadeTurn_none (by rw [hs0]; exact hfade) (by rw [hs0]; exact hpend)
  have hfir := hnote.trans (SatOnly.firOne (d.noteMean m) k ((d.noteMean m).chan k).now)
  have hval := firOne_val hnote ((d.noteMean m).chan k).now
  obtain ⟨s, hs⟩ := hfir.chan
  unfold doFir
  rw [if_neg (by simp [hact, hpast, hgrid])]
  dsimp only
  rw [hturn]
  simp only [show ((d.noteMean m).chan k).fade = none from by rw [hs0]; exact hfade]
  refine ⟨hfir.own.trans (OwnChan.updChan _ k _), s, ?_⟩
  rw [chan_updChan_same, hs, hval, hnote.settleN, hnote.outStamp, hs0]
  rfl

/-- The FIR output of a channel that fades mixes both responses (R286). -/
theorem doFir_fading {f : Fade} (hact : d.active k = true) (hpast : d.pastC0 k c = true)
    (hgrid : ((c : Int) - k) % (d.outClks k : Int) = 0) (hfade : (d.chan k).fade = some f) (hn : f.n < f.len) :
    OwnChan k d (d.doFir now k c ts m) ∧ ∃ s, (d.doFir now k c ts m).chan k = { d.chan k with
      sat := s, nOut := (d.chan k).nOut + 1, fade := some { f with n := f.n + 1 }
      wait := d.waitWith k c ts m (d.firVal k f.frm + rnd ((((f.n + 1 : Nat) : Int) * (d.firVal k f.dst - d.firVal k f.frm) : Int) /
        (f.len : Rat))) (if f.n + 1 = f.len then some f.slot else none) } := by
  have hnote := SatOnly.noteMean d k m
  obtain ⟨s0, hs0⟩ := hnote.chan
  have hfade' : ((d.noteMean m).chan k).fade = some f := by rw [hs0]; exact hfade
  have hturn : (d.noteMean m).fadeTurn now k = d.noteMean m := fadeTurn_on hfade' hn
  have hfrm := hnote.trans (SatOnly.firOne (d.noteMean m) k f.frm)
  have hval := firOne_val hnote f.frm
  have hdst := hfrm.trans (SatOnly.firOne ((d.noteMean m).firOne k f.frm).2 k f.dst)
  have hval' := firOne_val hfrm f.dst
  obtain ⟨s, hs⟩ := hdst.chan
  unfold doFir
  rw [if_neg (by simp [hact, hpast, hgrid])]
  dsimp only
  rw [hturn]
  simp only [hfade']
  refine ⟨hdst.own.trans ((OwnChan.updChan _ k _).trans (OwnChan.updChan _ k _)), s, ?_⟩
  rw [chan_updChan_same, chan_updChan_same, hs, hval, hval', hnote.settleN, hnote.outStamp]
  rfl

end

/-! Publication: the thresholds, the fade's turn and the protocol tests leave a channel's output. -/

/-- A fade that has reached its length is over (R286). -/
def fadeOver (d : Dev) (k : Nat) : Dev :=
  match (d.chan k).fade with
  | some f => if f.len ≤ f.n then d.updChan k (fun x => { x with now := f.dst, fade := none }) else d
  | none => d

/-- The pending swap of a channel that does not fade begins (R287). -/
def fadeNext (d : Dev) (now k : Nat) : Dev :=
  match (d.chan k).fade, (d.chan k).pend with
  | none, some (n, t, len) =>
    let d := d.updChan k (fun x => { x with pend := none })
    if t = (d.chan k).now then d.endCmd now n stDone
    else d.updChan k (fun x => { x with fade := some { frm := x.now, dst := t, len := len, n := 0, slot := n } })
  | _, _ => d

/-- What a publication judges (R285 to R290): one channel alone changes, its state and its outputs stand. -/
structure OutputStands (k : Nat) (d d' : Dev) : Prop where
  own : OwnChan k d d'
  st : (d'.chan k).st = (d.chan k).st
  wait : (d'.chan k).wait = (d.chan k).wait
  out : (d'.chan k).out = (d.chan k).out
  valid : (d'.chan k).valid = (d.chan k).valid
  nPub : (d'.chan k).nPub = (d.chan k).nPub

namespace OutputStands
variable {k : Nat}

theorem refl (d : Dev) : OutputStands k d d := ⟨.refl d, rfl, rfl, rfl, rfl, rfl⟩

theorem trans {a b c : Dev} (h : OutputStands k a b) (h' : OutputStands k b c) : OutputStands k a c :=
  ⟨h.own.trans h'.own, h'.st.trans h.st, h'.wait.trans h.wait, h'.out.trans h.out, h'.valid.trans h.valid, h'.nPub.trans h.nPub⟩

theorem ite {d a b : Dev} {c : Prop} [Decidable c] (ha : OutputStands k d a) (hb : OutputStands k d b) :
    OutputStands k d (if c then a else b) := by
  split
  · exact ha
  · exact hb

theorem ofPrism {d e : Dev} (hr : e.regs = d.regs) (hp : e.prism = d.prism) : OutputStands k d e := by
  have hc := chan_congr hp k
  exact ⟨.ofPrism hr hp, congrArg Chan.st hc, congrArg Chan.wait hc, congrArg Chan.out hc, congrArg Chan.valid hc,
    congrArg Chan.nPub hc⟩

theorem ofCap {d e : Dev} (h : CapEvents d e) : OutputStands k d e := by
  obtain ⟨q, b, c, rfl, -⟩ := h
  exact ofPrism rfl rfl

theorem raise (d : Dev) (p n : Nat) : OutputStands k d (d.raise p n) := by
  obtain ⟨q, b, h⟩ := raise_eq d p n
  rw [h]
  exact ofPrism rfl rfl

theorem endCmd (d : Dev) (now n st res : Nat) : OutputStands k d (d.endCmd now n st res) := by
  obtain ⟨b, h⟩ := endCmd_frame d now n st res
  rw [h]
  exact ofPrism rfl rfl

theorem updChan (d : Dev) {f : Chan → Chan} (hst : ∀ x, (f x).st = x.st) (hwait : ∀ x, (f x).wait = x.wait)
    (hout : ∀ x, (f x).out = x.out) (hvalid : ∀ x, (f x).valid = x.valid) (hn : ∀ x, (f x).nPub = x.nPub) :
    OutputStands k d (d.updChan k f) := by
  have hc : (d.updChan k f).chan k = f (d.chan k) := chan_updChan_same ..
  exact ⟨.updChan d k f, by rw [hc, hst], by rw [hc, hwait], by rw [hc, hout], by rw [hc, hvalid], by rw [hc, hn]⟩

theorem thrEvent (d : Dev) (now which res : Nat) (y : Int) (stamp : Nat) : OutputStands k d (d.thrEvent now k which res y stamp) := by
  unfold Dev.thrEvent
  refine ite (refl d) ((ofCap (CapEvents.logEntry d _)).trans (ite ?_ (refl _)))
  exact (raise _ 0x28 (which + 1)).trans (ofCap (CapEvents.trigger ..))

theorem levelStep (d : Dev) (now which : Nat) (y : Int) (stamp : Nat) : OutputStands k d (d.levelStep now k which y stamp) := by
  unfold Dev.levelStep
  dsimp only
  refine ite (refl d) ((updChan d ?_ ?_ ?_ ?_ ?_).trans (thrEvent ..)) <;> intro x <;> split <;> rfl

theorem updTr (d : Dev) (r : Thr) : OutputStands k d (d.updChan k (fun c => { c with tr := r })) :=
  updChan d (fun _ => rfl) (fun _ => rfl) (fun _ => rfl) (fun _ => rfl) (fun _ => rfl)

theorem rocStep (d : Dev) (now : Nat) (y : Int) (stamp : Nat) : OutputStands k d (d.rocStep now k y stamp) := by
  unfold Dev.rocStep
  dsimp only
  split
  · exact refl d
  · exact ite (refl d) ((updTr d _).trans (thrEvent ..))

theorem fadeOver (d : Dev) : OutputStands k d (d.fadeOver k) := by
  unfold Dev.fadeOver
  split
  · exact ite (updChan d (fun _ => rfl) (fun _ => rfl) (fun _ => rfl) (fun _ => rfl) (fun _ => rfl)) (refl d)
  · exact refl d

theorem updPend (d : Dev) (r : Option (Nat × Nat × Nat)) : OutputStands k d (d.updChan k (fun c => { c with pend := r })) :=
  updChan d (fun _ => rfl) (fun _ => rfl) (fun _ => rfl) (fun _ => rfl) (fun _ => rfl)

theorem updFade (d : Dev) (f : Chan → Option Fade) : OutputStands k d (d.updChan k (fun c => { c with fade := f c })) :=
  updChan d (fun _ => rfl) (fun _ => rfl) (fun _ => rfl) (fun _ => rfl) (fun _ => rfl)

theorem fadeNext (d : Dev) (now : Nat) : OutputStands k d (d.fadeNext now k) := by
  unfold Dev.fadeNext
  dsimp only
  split
  · rename_i n t len _ _
    exact (updPend d none).trans (ite (endCmd ..)
      (updFade _ (fun x => some { frm := x.now, dst := t, len := len, n := 0, slot := n })))
  · exact refl d

theorem fadeTurn (d : Dev) (now : Nat) : OutputStands k d (d.fadeTurn now k) := (fadeOver d).trans (fadeNext _ now)

theorem ptPrism (d : Dev) (v : Int) (stamp : Nat) : OutputStands k d (d.ptPrism k v stamp) := by
  unfold Dev.ptPrism
  dsimp only
  refine ite (refl d) (trans (b := if d.fld 0x35 0x6C 7 4 = k then d.modPt (fun p => { p with r2 := ({ t := (stamp : Rat) / 16, v := v } : PtSample) :: p.r2 }) else d)
    (ite (ofPrism rfl rfl) (refl d)) (ite (ofPrism rfl rfl) (refl _)))

end OutputStands

/-- The oldest output of a channel is published (R277, R282). -/
def published (d : Dev) (k : Nat) (o : POut) (r : List POut) : Dev :=
  d.updChan k (fun c => { c with wait := r, out := o, valid := true, pub := o :: c.pub.take 524287, nPub := c.nPub + 1 })

/-- An active channel that settles is RUNNING from its first publication on (R282). -/
theorem running_of_active {d : Dev} {now k : Nat} (hact : d.active k = true) :
    let e := if (d.chan k).st == .settling then (d.updChan k (fun c => { c with st := .running, runAt := now })).raise 0x28 0 else d
    OwnChan k d e ∧ (e.chan k).st = .running ∧ (e.chan k).nPub = (d.chan k).nPub := by
  intro e
  by_cases hst : (d.chan k).st = .settling
  · have he : e = (d.updChan k (fun c => { c with st := .running, runAt := now })).raise 0x28 0 := if_pos (by simp [hst])
    rw [he, chan_raise, chan_updChan_same]
    exact ⟨(OwnChan.updChan d k _).trans (OwnChan.raise _ 0x28 0), rfl, rfl⟩
  · have he : e = d := if_neg (by simpa using hst)
    have hrun : (d.chan k).st = .running := by
      unfold active at hact
      cases h : (d.chan k).st <;> simp_all
    rw [he]
    exact ⟨.refl d, hrun, rfl⟩

theorem doPublish_parts {d : Dev} {now k : Nat} {o : POut} {r : List POut} (hact : d.active k = true) (hwait : (d.chan k).wait = o :: r) :
    OwnChan k d (d.doPublish now k) ∧ ((d.doPublish now k).chan k).out = o ∧ ((d.doPublish now k).chan k).valid = true ∧
      ((d.doPublish now k).chan k).st = .running ∧ ((d.doPublish now k).chan k).wait = r ∧
      ((d.doPublish now k).chan k).nPub = (d.chan k).nPub + 1 := by
  obtain ⟨hown, hst, hn⟩ := running_of_active (now := now) hact
  unfold doPublish
  rw [if_neg (by simp [hact])]
  simp only [hwait]
  generalize (if (d.chan k).st == .settling then (d.updChan k (fun c => { c with st := .running, runAt := now })).raise 0x28 0
    else d) = e at hown hst hn ⊢
  have hjudge : OutputStands k e (((e.levelStep now k 0 o.val o.stamp).levelStep now k 1 o.val o.stamp).rocStep now k o.val o.stamp) :=
    (OutputStands.levelStep ..).trans ((OutputStands.levelStep ..).trans (OutputStands.rocStep ..))
  generalize ((e.levelStep now k 0 o.val o.stamp).levelStep now k 1 o.val o.stamp).rocStep now k o.val o.stamp = j at hjudge ⊢
  have hpub : (j.published k o r).chan k = { j.chan k with
      wait := r, out := o, valid := true, pub := o :: (j.chan k).pub.take 524287, nPub := (j.chan k).nPub + 1 } := chan_updChan_same ..
  have hrest : OutputStands k (j.published k o r) ((match o.done with
      | none => j.published k o r
      | some n =>
        if (((j.published k o r).endCmd now n stDone).chan k).fade.map (fun (f : Fade) => f.slot) == some n then
          ((j.published k o r).endCmd now n stDone).fadeTurn now k
        else (j.published k o r).endCmd now n stDone).ptPrism k o.val o.stamp) := by
    refine OutputStands.trans ?_ (OutputStands.ptPrism ..)
    split
    · exact .refl _
    · exact (OutputStands.endCmd ..).trans (.ite (OutputStands.fadeTurn ..) (.refl _))
  refine ⟨hown.trans (hjudge.own.trans ((OwnChan.updChan j k _).trans hrest.own)), ?_, ?_, ?_, ?_, ?_⟩
  · exact hrest.out.trans (by rw [hpub])
  · exact hrest.valid.trans (by rw [hpub])
  · exact hrest.st.trans (by rw [hpub]; exact hjudge.st.trans hst)
  · exact hrest.wait.trans (by rw [hpub])
  · exact hrest.nPub.trans (by rw [hpub]; exact congrArg (· + 1) (hjudge.nPub.trans hn))

end Dev

/-- Settles O52. -/
theorem channelOutputsFollow : Obligations.ChannelOutputsFollow := by
  unfold Obligations.ChannelOutputsFollow
  refine ⟨fun k c line s hdom hclk hst hstart hgrid hc0 hlen =>
    next_withDev (if_pos (by simp [Dev.c0Ok_of hdom hclk hst hstart hgrid hc0, hlen])), fun k c ts pbar bs s _ hact => ?_⟩
  dsimp only
  refine ⟨fun hpast => ⟨?_, ?_⟩, fun hpast hlen hgrid => ?_, fun hpast hgrid hpend => ⟨fun hfade => ?_, fun f hfade hn => ?_⟩,
    fun o r hwait => ?_⟩
  · exact next_withDev (s := s) (d' := s.dev) (if_pos (by simp [hpast]))
  · exact next_withDev (s := s) (d' := s.dev) (if_pos (by simp [hpast]))
  · obtain ⟨hown, sat, hc⟩ := Dev.doCic_parts hact hpast hlen hgrid
    have hout := congrArg Chan.out hc
    have hst := congrArg Chan.st hc
    refine ⟨s.withDev (s.dev.doCic k c bs), rfl, rfl, rfl, rfl, hown.regs, congrArg Chan.i1 hc, congrArg Chan.i2 hc, congrArg Chan.i3 hc,
      congrArg Chan.p3 hc, congrArg Chan.p1 hc, congrArg Chan.p2 hc, congrArg Chan.line hc, congrArg Chan.hist hc, hout, hst, hown.others⟩
  · obtain ⟨hown, sat, hc⟩ := Dev.doFir_steady (now := s.now) (ts := ts) (m := pbar) hact hpast hgrid hpend hfade
    have hout := congrArg Chan.out hc
    exact ⟨s.withDev (s.dev.doFir s.now k c ts pbar), rfl, rfl, rfl, rfl, hown.regs, congrArg Chan.wait hc, congrArg Chan.nOut hc,
      hout, hown.others⟩
  · obtain ⟨hown, sat, hc⟩ := Dev.doFir_fading (now := s.now) (ts := ts) (m := pbar) hact hpast hgrid hfade hn
    have hout := congrArg Chan.out hc
    exact ⟨s.withDev (s.dev.doFir s.now k c ts pbar), rfl, rfl, rfl, rfl, hown.regs, congrArg Chan.fade hc, congrArg Chan.wait hc,
      congrArg Chan.nOut hc, hout, hown.others⟩
  · obtain ⟨hown, hout, hvalid, hst, hwait', hn⟩ := Dev.doPublish_parts (now := s.now) hact hwait
    exact ⟨s.withDev (s.dev.doPublish s.now k), rfl, rfl, rfl, rfl, hown.regs, hout, hvalid, hst, hwait', hn, hown.others⟩

end Sys2Proof.Machine
end

section
/-! The phasor frames and the wavefront outputs (R294, R299 to R305). -/

namespace Sys2Proof.Machine
namespace Dev

/-- An event that stands in EVT_RAW stands when another is raised (R416). -/
theorem raise_keeps_raw {d : Dev} {p m : Nat} (n : Nat) (h : bit (d.pg p).raw m = true) : bit ((d.raise p n).pg p).raw m = true := by
  by_cases hon : d.pageOn p = true
  · rw [pg_raise_same n hon]
    by_cases hm : m = n
    · rw [hm]
      exact bit_setBit_true ..
    · exact (bit_setBit_true_ne hm).trans h
  · rw [raise_off (by simpa using hon)]
    exact h

/-- A frame joins the queue, its oldest leaving a full one (R299, R300). -/
def queueFrame (d : Dev) (tai : Nat) (f : PFrame) (full : Bool) : Dev :=
  d.modPhasor (fun p => { p with
    queue := (if full then p.queue.tail else p.queue) ++ [f]
    newest := some f, lastTai := some tai, drop := if full then sat1 32 p.drop else p.drop })

/-- What is raised at a frame (R299, R300): FRAME, and then OVERRUN and ERR where they apply. -/
theorem frameEvents (d : Dev) (full turned : Bool) :
    let e := (fun d : Dev => if turned then d.raise 0x2A 1 else d) (if full then (d.raise 0x2A 0).raise 0x2A 2 else d.raise 0x2A 0)
    (∃ q b, e = { d with pages := q, bus := b }) ∧ (d.pageOn 0x2A = true → bit (e.pg 0x2A).raw 0 = true) := by
  have hone : ∀ (x : Dev) (n : Nat) (c : Bool), (∃ q b, x = { d with pages := q, bus := b }) ∧
      (d.pageOn 0x2A = true → bit (x.pg 0x2A).raw 0 = true) →
      (∃ q b, (if c then x.raise 0x2A n else x) = { d with pages := q, bus := b }) ∧
        (d.pageOn 0x2A = true → bit ((if c then x.raise 0x2A n else x).pg 0x2A).raw 0 = true) := by
    rintro x n c ⟨⟨q, b, hx⟩, hraw⟩
    cases c with
    | false => exact ⟨⟨q, b, hx⟩, hraw⟩
    | true =>
      obtain ⟨q', b', h⟩ := raise_eq x 0x2A n
      exact ⟨⟨q', b', h.trans (by rw [hx])⟩, fun hon => raise_keeps_raw n (hraw hon)⟩
  have hfirst := raise_eq d 0x2A 0
  exact hone _ 1 turned (hone _ 2 full ⟨hfirst, fun hon => raise_raw 0 hon⟩)

theorem doPhasorFrame_parts {d : Dev} {sec k sr : Nat} (hon : d.phasorOn = true) (hk : k < d.phFs)
    (hfresh : ∀ l, d.phasor.lastTai = some l → l < d.repAt sec k)
    (hrep : repInstant (d.repAt sec k) d.locus.offset none d.phasor.steps = some sr) :
    (∃ q b, d.doPhasorFrame sec k = { d.queueFrame (d.repAt sec k) (d.phFrame (d.repAt sec k) sr) (decide (16 ≤ d.phasor.queue.length)) with
        pages := q, bus := b }) ∧
      (d.pageOn 0x2A = true → bit ((d.doPhasorFrame sec k).pg 0x2A).raw 0 = true) := by
  unfold doPhasorFrame
  dsimp only
  rw [if_neg (by
    cases h : d.phasor.lastTai with
    | none => simp [hon, hk]
    | some l => simp [hon, hk, hfresh l h])]
  simp only [hrep]
  exact frameEvents (d.queueFrame (d.repAt sec k) (d.phFrame (d.repAt sec k) sr) (decide (16 ≤ d.phasor.queue.length))) _ _

/-! The wavefront path. -/

/-- The next state of a channel of the decimator: outputs are kept once three have been discarded (R302, R303). -/
def waveNext (skip : Nat) (bs : List Nat) (w : WChan) (k : Nat) : WChan :=
  let r := waveCic w (bs.map (fun b => bit b k))
  if 0 < skip then r.1 else { r.1 with hist := r.2 :: r.1.hist.take 16 }

/-- One channel takes its bits. -/
def waveTake (bs : List Nat) (d : Dev) (k : Nat) : Dev :=
  d.modWave (fun q => { q with chan := tset {} q.chan k (waveNext d.wave.skip bs (tget {} d.wave.chan k) k) })

/-- Each channel of a list takes its bits once, and nothing else changes. -/
theorem each_waveTake (bs : List Nat) {l : List Nat} (hl : l.Nodup) (d : Dev) :
    ∃ ch, d.each l (waveTake bs) = d.modWave (fun q => { q with chan := ch }) ∧
      ∀ x, tget {} ch x = if x ∈ l then waveNext d.wave.skip bs (tget {} d.wave.chan x) x else tget {} d.wave.chan x := by
  unfold each
  induction l generalizing d with
  | nil => exact ⟨d.wave.chan, rfl, fun x => by simp⟩
  | cons k r ih =>
    obtain ⟨hk, hr⟩ := List.nodup_cons.mp hl
    obtain ⟨ch, hch, hget⟩ := ih hr (d.waveTake bs k)
    refine ⟨ch, hch, fun x => (hget x).trans ?_⟩
    by_cases hx : x = k
    · subst hx
      simp [hk, waveTake]
    · simp [waveTake, hx, tget_tset_ne _ _ _ _ _ _ hx]

/-- What the detectors leave of a channel of the decimator (R304): its filter's state and its history. -/
def SameSamples (u w : WChan) : Prop := ∃ p h, u = { w with prev := p, hold := h }

/-- What detection leaves (R304, R305): registers, holds, the Prism chain, the outputs still to discard, and the samples. -/
structure Detects (d d' : Dev) : Prop where
  regs : d'.regs = d.regs
  hull : d'.hull = d.hull
  prism : d'.prism = d.prism
  skip : d'.wave.skip = d.wave.skip
  chan : ∀ x, SameSamples (tget {} d'.wave.chan x) (tget {} d.wave.chan x)

namespace Detects

theorem refl (d : Dev) : Detects d d := ⟨rfl, rfl, rfl, rfl, fun _ => ⟨_, _, rfl⟩⟩

theorem trans {a b c : Dev} (h : Detects a b) (h' : Detects b c) : Detects a c := by
  refine ⟨h'.regs.trans h.regs, h'.hull.trans h.hull, h'.prism.trans h.prism, h'.skip.trans h.skip, fun x => ?_⟩
  obtain ⟨p, q, hx⟩ := h.chan x
  obtain ⟨p', q', hx'⟩ := h'.chan x
  exact ⟨p', q', by rw [hx', hx]⟩

theorem ite {d a b : Dev} {c : Prop} [Decidable c] (ha : Detects d a) (hb : Detects d b) : Detects d (if c then a else b) := by
  split
  · exact ha
  · exact hb

theorem ofCap {d e : Dev} (h : CapEvents d e) : Detects d e := by
  obtain ⟨q, b, c, rfl, -⟩ := h
  exact ⟨rfl, rfl, rfl, rfl, fun _ => ⟨_, _, rfl⟩⟩

theorem raise (d : Dev) (p n : Nat) : Detects d (d.raise p n) := by
  obtain ⟨q, b, h⟩ := raise_eq d p n
  rw [h]
  exact ⟨rfl, rfl, rfl, rfl, fun _ => ⟨_, _, rfl⟩⟩

theorem pushFrame (d : Dev) (i : Nat) (f : Frame) : Detects d (d.pushFrame i f) := by
  unfold Dev.pushFrame
  exact ite (refl d) (ofCap (CapEvents.updRing d i _))

theorem modFifo (d : Dev) (f : Wave → List Arrival) : Detects d (d.modWave (fun w => { w with fifo := f w })) :=
  ⟨rfl, rfl, rfl, rfl, fun _ => ⟨_, _, rfl⟩⟩

theorem modLost (d : Dev) (f : Wave → Nat) : Detects d (d.modWave (fun w => { w with lost := f w })) :=
  ⟨rfl, rfl, rfl, rfl, fun _ => ⟨_, _, rfl⟩⟩

theorem modLastAt (d : Dev) (t : Rat) : Detects d (d.modWave (fun w => { w with lastAt := t })) :=
  ⟨rfl, rfl, rfl, rfl, fun _ => ⟨_, _, rfl⟩⟩

theorem modPrev (d : Dev) (k : Nat) (v : Option Int) (h : Nat) : Detects d (d.modWave (fun q => { q with
    chan := tupd {} q.chan k (fun y => { y with prev := v, hold := h }) })) := by
  refine ⟨rfl, rfl, rfl, rfl, fun x => ?_⟩
  by_cases hx : x = k
  · subst hx
    exact ⟨v, h, by simp [tupd]⟩
  · exact ⟨(tget {} d.wave.chan x).prev, (tget {} d.wave.chan x).hold, by simp [tupd, tget_tset_ne _ _ _ _ _ _ hx]⟩

theorem queued (d : Dev) (a : Arrival) : Detects d (if d.wave.fifo.length < 64 then d.modWave (fun w => { w with fifo := w.fifo ++ [a] })
    else (d.modWave (fun w => { w with lost := sat1 32 w.lost })).raise 0x2B 2) :=
  ite (modFifo d _) ((modLost d _).trans (raise _ 0x2B 2))

theorem arrival (d : Dev) (now k : Nat) (x : Int) (stamp : Nat) : Detects d (d.arrival now k x stamp) :=
  (((ofCap (CapEvents.logEntry d _)).trans (raise _ 0x2B 0)).trans (ofCap (CapEvents.trigger ..))).trans
    (queued _ { stamp := stamp, chan := k, d := x })

theorem waveDetect (d : Dev) (now k : Nat) : Detects d (d.waveDetect now k) := by
  unfold Dev.waveDetect
  dsimp only
  split
  · refine ite (modPrev ..) ?_
    split
    · exact modPrev ..
    · exact ite ((modPrev ..).trans (arrival ..)) (modPrev ..)
  · exact refl d

theorem detectAll (d : Dev) (now : Nat) : Detects d (d.each (List.range 16) (fun d k => d.waveDetect now k)) :=
  foldl_frame .refl .trans (fun d k => waveDetect d now k) (List.range 16) d

end Detects

/-- The mapped channels' samples join the record of ring 0 (R313). -/
def waveRecord (d : Dev) (t : Nat) : Dev :=
  let map := onBits 16 (d.fld 0x2B 0x2C 15 0)
  let smp := map.flatMap (fun k => bytesLE 2 (ux 16 ((tget {} d.wave.chan k).hist.headD 0)))
  if map.isEmpty then d else d.pushFrame 0 { t := t / 16, fine := t % 16, bytes := smp }

theorem Detects.waveRecord (d : Dev) (t : Nat) : Detects d (d.waveRecord t) := by
  unfold Dev.waveRecord
  exact ite (refl d) (pushFrame ..)

/-- A wavefront output after its channels have taken their bits (R302 to R305). -/
def waveAfter (d : Dev) (now c ts : Nat) : Dev :=
  if 0 < d.wave.skip then
    (d.modWave (fun q => { q with skip := q.skip - 1 })).modWave (fun q => { q with lastAt := d.waveAt c ts })
  else
    ((d.waveRecord (Config.roundAt 22 (d.waveAt c ts)).toNat).each (List.range 16)
      (fun d k => d.waveDetect now k)).modWave (fun q => { q with lastAt := d.waveAt c ts })

theorem waveAfter_parts (d : Dev) (now c ts : Nat) :
    let r := d.waveAfter now c ts
    r.regs = d.regs ∧ r.hull = d.hull ∧ r.prism = d.prism ∧ r.wave.skip = d.wave.skip - 1 ∧
      ∀ x, SameSamples (tget {} r.wave.chan x) (tget {} d.wave.chan x) := by
  unfold waveAfter
  dsimp only
  by_cases h : 0 < d.wave.skip
  · rw [if_pos h]
    exact ⟨rfl, rfl, rfl, rfl, fun _ => ⟨_, _, rfl⟩⟩
  · rw [if_neg h]
    have hd := ((Detects.waveRecord d (Config.roundAt 22 (d.waveAt c ts)).toNat).trans
      (Detects.detectAll _ now)).trans (Detects.modLastAt _ (d.waveAt c ts))
    exact ⟨hd.regs, hd.hull, hd.prism, hd.skip.trans (by omega), hd.chan⟩

theorem doWave_eq {d : Dev} {now c ts : Nat} {m : EdgeMean} {bs : List Nat} (hdom : d.domOn 6 = true)
    (hrun : d.wave.running = true) (hc : c % 4 = 0) (hlen : bs.length = 4) :
    d.doWave now c ts m bs = ((d.noteMean m).each (List.range 16) (waveTake bs)).waveAfter now c ts := by
  obtain ⟨ch, hch, -⟩ := each_waveTake bs List.nodup_range (d.noteMean m)
  have hskip : ((d.noteMean m).each (List.range 16) (waveTake bs)).wave.skip = d.wave.skip := by
    rw [hch]
    unfold noteMean
    split <;> rfl
  have hdo : d.doWave now c ts m bs = (let e := (d.noteMean m).each (List.range 16) (waveTake bs)
      if decide (0 < d.wave.skip) then (e.modWave (fun q => { q with skip := q.skip - 1 })).modWave (fun q => { q with lastAt := e.waveAt c ts })
      else
        ((e.waveRecord (Config.roundAt 22 (e.waveAt c ts)).toNat).each (List.range 16)
          (fun d k => d.waveDetect now k)).modWave (fun q => { q with lastAt := e.waveAt c ts })) :=
    if_neg (by simp [hdom, hrun, hc, hlen])
  rw [hdo]
  unfold waveAfter
  rw [hskip]
  simp only [decide_eq_true_eq]

theorem noteMean_prism (d : Dev) (m : EdgeMean) :
    d.noteMean m = { d with prism := if d.clkMode = 2 then { d.prism with pbar := m } else d.prism } := by
  unfold noteMean
  split <;> rfl

/-- A wavefront output: every channel takes its bits, and the outputs still to discard are one fewer. -/
theorem doWave_parts {d : Dev} {now c ts : Nat} {m : EdgeMean} {bs : List Nat} (hdom : d.domOn 6 = true)
    (hrun : d.wave.running = true) (hc : c % 4 = 0) (hlen : bs.length = 4) :
    let r := d.doWave now c ts m bs
    r.regs = d.regs ∧ r.hull = d.hull ∧ r.prism = (if d.clkMode = 2 then { d.prism with pbar := m } else d.prism) ∧
      r.wave.skip = d.wave.skip - 1 ∧
      ∀ x, x < 16 → SameSamples (tget {} r.wave.chan x) (waveNext d.wave.skip bs (tget {} d.wave.chan x) x) := by
  obtain ⟨ch, hch, hget⟩ := each_waveTake bs List.nodup_range (d.noteMean m)
  rw [doWave_eq hdom hrun hc hlen, hch]
  obtain ⟨hregs, hhull, hprism, hskip, hchan⟩ := waveAfter_parts ((d.noteMean m).modWave (fun q => { q with chan := ch })) now c ts
  have hnote := noteMean_prism d m
  have hwave : (d.noteMean m).wave = d.wave := by rw [hnote]
  refine ⟨hregs.trans (by rw [hnote]; rfl), hhull.trans (by rw [hnote]; rfl), hprism.trans (by rw [hnote]; rfl),
    hskip.trans (by rw [hnote]; rfl), fun x hx => ?_⟩
  have hx' := hget x
  rw [if_pos (List.mem_range.mpr hx), hwave] at hx'
  rw [← hx']
  exact hchan x

end Dev

/-- Settles O54. -/
theorem phasorFramesAndWaveOutputsFollow : Obligations.PhasorFramesAndWaveOutputsFollow := by
  unfold Obligations.PhasorFramesAndWaveOutputsFollow
  refine fun sec k sr c ts pbar bs s => ⟨fun hon hk hfresh hrep => ?_, fun hdom hrun hc hlen => ?_⟩
  · obtain ⟨⟨q, b, h⟩, hraw⟩ := Dev.doPhasorFrame_parts hon hk hfresh hrep
    have hph := congrArg (fun d => d.phasor) h
    have hregs := congrArg Dev.regs h
    have hhull := congrArg Dev.hull h
    have hprism := congrArg Dev.prism h
    refine ⟨s.withDev (s.dev.doPhasorFrame sec k), rfl, rfl, rfl, rfl, hregs, hhull, hprism,
      congrArg Phasor.lastTai hph, congrArg Phasor.newest hph, (congrArg Phasor.queue hph).trans ?_,
      (congrArg Phasor.drop hph).trans ?_, hraw⟩ <;> simp [Dev.queueFrame]
  · obtain ⟨hregs, hhull, hprism, hskip, hchan⟩ := Dev.doWave_parts (now := s.now) (ts := ts) (m := pbar) hdom hrun hc hlen
    refine ⟨s.withDev (s.dev.doWave s.now c ts pbar bs), rfl, rfl, rfl, rfl, hregs, hhull, hprism, hskip, fun x hx => ?_⟩
    obtain ⟨p, q, hw⟩ := hchan x hx
    dsimp only [State.withDev]
    rw [hw]
    unfold Dev.waveNext
    by_cases h : 0 < s.dev.wave.skip <;> simp [h]

end Sys2Proof.Machine
end

section
/-! Vertex's latch and publication, and the units of Chord (R136, R137, R144, R148, R149, R392). -/

namespace Sys2Proof.Machine

/-- What one step of a walk makes and every step keeps holds at the end. -/
theorem foldl_reaches {α : Type} {f : Dev → α → Dev} {I P : Dev → Prop} {l : List α} {x : α} (hx : x ∈ l)
    (hinv : ∀ d y, I d → I (f d y)) (hmake : ∀ d, I d → P (f d x)) (hkeep : ∀ d y, P d → P (f d y)) {d : Dev} (hd : I d) :
    P (l.foldl f d) := by
  have hstays : ∀ (r : List α) (e : Dev), P e → P (r.foldl f e) := by
    intro r
    induction r with
    | nil => exact fun _ h => h
    | cons y r ih => exact fun e h => ih _ (hkeep e y h)
  induction l generalizing d with
  | nil => cases hx
  | cons y r ih =>
    rcases List.mem_cons.mp hx with rfl | hr
    · exact hstays r _ (hmake d hd)
    · exact ih hr (hinv d y hd)

namespace Dev

@[simp] theorem vc_updCell_same (d : Dev) (k : Nat) (f : VCell → VCell) : (d.updCell k f).vc k = f (d.vc k) := by
  simp [vc, updCell, tupd]

theorem vc_updCell_ne {d : Dev} {k j : Nat} {f : VCell → VCell} (h : j ≠ k) : (d.updCell k f).vc j = d.vc j := by
  simp [vc, updCell, tupd, tget_tset_ne _ _ _ _ _ _ h]

@[simp] theorem vs_updStr_same (d : Dev) (s : Nat) (f : VStr → VStr) : (d.updStr s f).vs s = f (d.vs s) := by
  simp [vs, updStr, tupd]

theorem vs_updStr_ne {d : Dev} {s j : Nat} {f : VStr → VStr} (h : j ≠ s) : (d.updStr s f).vs j = d.vs j := by
  simp [vs, updStr, tupd, tget_tset_ne _ _ _ _ _ _ h]

/-! What Vertex works on: its cells and strings, and the units' transition counts. -/

/-- Registers, links, holds and the engine stand. -/
structure VertexOnly (d d' : Dev) : Prop where
  regs : d'.regs = d.regs
  link : d'.link = d.link
  hull : d'.hull = d.hull
  lat : d'.lat = d.lat

namespace VertexOnly

theorem refl (d : Dev) : VertexOnly d d := ⟨rfl, rfl, rfl, rfl⟩

theorem trans {a b c : Dev} (h : VertexOnly a b) (h' : VertexOnly b c) : VertexOnly a c :=
  ⟨h'.regs.trans h.regs, h'.link.trans h.link, h'.hull.trans h.hull, h'.lat.trans h.lat⟩

theorem meanR (d : Dev) (sum : Rat) (n : Nat) : VertexOnly d (d.meanR sum n).2 := by
  unfold Dev.meanR
  split
  · exact ⟨rfl, rfl, rfl, rfl⟩
  · exact refl d

theorem strCells {d d' : Dev} (h : VertexOnly d d') (s : Nat) : d'.strCells s = d.strCells s := by
  unfold Dev.strCells strCount strFirst Dev.fld Dev.rd
  rw [h.regs]

theorem strOf {d d' : Dev} (h : VertexOnly d d') (k : Nat) : d'.strOf k = d.strOf k := by
  unfold Dev.strOf strings strEn strFirst strCount Dev.flag Dev.fld Dev.rd
  rw [h.regs]

end VertexOnly

/-! The latch (R148, R150, R152). -/

/-- A cell whose inputs are latched (R148): its transitions count afresh, and it has its latest V_dc. -/
structure CellLatched (d : Dev) (k : Nat) : Prop where
  nTr : (d.ch k).nTr = 0
  cause : (d.vc k).cause = false
  v : (d.vc k).inp.v = ((d.lk k).samp.find? (fun q => q.1 == 0)).map (fun q => q.2.1)

/-- A string whose block sums start again (R148). -/
structure SumsFresh (d : Dev) (s : Nat) : Prop where
  n : (d.vs s).n = 0
  sumP : (d.vs s).sumP = 0
  vBlk : (d.vs s).vBlk = 0

/-- What the latch leaves (R148): what Vertex does not work on, and every published share. -/
structure Latches (d d' : Dev) : Prop where
  only : VertexOnly d d'
  share : ∀ k, (d'.vc k).g = (d.vc k).g

theorem Latches.refl (d : Dev) : Latches d d := ⟨.refl d, fun _ => rfl⟩

theorem Latches.trans {a b c : Dev} (h : Latches a b) (h' : Latches b c) : Latches a c :=
  ⟨h.only.trans h'.only, fun k => (h'.share k).trans (h.share k)⟩

theorem latchCell_frame (s : Nat) (d : Dev) (k : Nat) : ∃ i : VIn,
    latchCell s d k = (d.updCell k (fun c => { c with inp := i, cause := false })).updChord k (fun c => { c with nTr := 0 }) ∧
      i.v = ((d.lk k).samp.find? (fun q => q.1 == 0)).map (fun q => q.2.1) := ⟨_, rfl, rfl⟩

theorem vc_updChord (d : Dev) (k j : Nat) (f : Chord → Chord) : (d.updChord k f).vc j = d.vc j := rfl

/-- The latch of a cell takes its inputs and its transition count, and leaves its share. -/
theorem latchCell_own (s : Nat) (d : Dev) (k : Nat) : CellLatched (latchCell s d k) k ∧ ((latchCell s d k).vc k).g = (d.vc k).g := by
  obtain ⟨i, h, hv⟩ := latchCell_frame s d k
  rw [h]
  refine ⟨⟨by rw [ch_updChord_same], ?_, ?_⟩, ?_⟩ <;> rw [vc_updChord, vc_updCell_same]
  exact hv

/-- The latch of one cell leaves another as it is. -/
theorem latchCell_ne (s : Nat) (d : Dev) {k j : Nat} (h : j ≠ k) :
    (latchCell s d k).vc j = d.vc j ∧ (latchCell s d k).ch j = d.ch j ∧ (latchCell s d k).lk j = d.lk j := by
  obtain ⟨i, he, -⟩ := latchCell_frame s d k
  rw [he]
  exact ⟨(vc_updChord ..).trans (vc_updCell_ne h), ch_updChord_ne h, rfl⟩

theorem latchCell_keeps {s j : Nat} {d : Dev} (k : Nat) (h : CellLatched d j) : CellLatched (latchCell s d k) j := by
  by_cases hjk : j = k
  · rw [hjk]
    exact (latchCell_own s d k).1
  · obtain ⟨hvc, hch, hlk⟩ := latchCell_ne s d hjk
    exact ⟨by rw [hch]; exact h.nTr, by rw [hvc]; exact h.cause, by rw [hvc, hlk]; exact h.v⟩

theorem Latches.latchCell (s : Nat) (d : Dev) (k : Nat) : Latches d (latchCell s d k) := by
  refine ⟨⟨rfl, rfl, rfl, rfl⟩, fun j => ?_⟩
  by_cases hjk : j = k
  · rw [hjk]
    exact (latchCell_own s d k).2
  · exact congrArg VCell.g (latchCell_ne s d hjk).1

/-- The block's means and the largest voltage of a string are latched, and its sums start again. -/
def latchSums (d : Dev) (s : Nat) : Dev :=
  let x := d.vs s
  let (i2, d) := d.meanR x.sumI2 x.n
  let (ia, d) := d.meanR x.sumI x.n
  let (pb, d) := d.meanR x.sumP x.n
  let pb := q15At 26 pb
  let hist := x.vBlk :: x.vHist.take 95
  d.updStr s (fun x => { x with
    iBlk := i2, iAbs := ia, pBar := pb, vHist := hist, vAct := maxI 0 hist, n := 0, sumI2 := 0, sumI := 0, sumP := 0, vBlk := 0 })

theorem latchStr_eq (d : Dev) (s : Nat) : latchStr d s = (d.latchSums s).each ((d.latchSums s).strCells s) (latchCell s) := rfl

theorem meanR_frame (d : Dev) (sum : Rat) (n : Nat) : ∃ f, (d.meanR sum n).2 = { d with free := f } := by
  unfold meanR
  split
  · exact ⟨_, rfl⟩
  · exact ⟨d.free, rfl⟩

theorem latchSums_frame (d : Dev) (s : Nat) :
    ∃ f a b p h v, d.latchSums s = ({ d with free := f } : Dev).updStr s (fun x => { x with
      iBlk := a, iAbs := b, pBar := p, vHist := h, vAct := v, n := 0, sumI2 := 0, sumI := 0, sumP := 0, vBlk := 0 }) := by
  obtain ⟨f1, h1⟩ := meanR_frame d (d.vs s).sumI2 (d.vs s).n
  obtain ⟨f2, h2⟩ := meanR_frame ({ d with free := f1 } : Dev) (d.vs s).sumI (d.vs s).n
  obtain ⟨f3, h3⟩ := meanR_frame ({ d with free := f2 } : Dev) (d.vs s).sumP (d.vs s).n
  unfold latchSums
  dsimp only
  rw [h1, h2, h3]
  exact ⟨_, _, _, _, _, _, rfl⟩

theorem Latches.latchSums (d : Dev) (s : Nat) : Latches d (d.latchSums s) := by
  obtain ⟨f, a, b, p, h, v, he⟩ := latchSums_frame d s
  rw [he]
  exact ⟨⟨rfl, rfl, rfl, rfl⟩, fun _ => rfl⟩

theorem latchSums_fresh (d : Dev) (s : Nat) : SumsFresh (d.latchSums s) s := by
  obtain ⟨f, a, b, p, h, v, he⟩ := latchSums_frame d s
  rw [he]
  exact ⟨by rw [vs_updStr_same], by rw [vs_updStr_same], by rw [vs_updStr_same]⟩

theorem latchSums_keeps {d : Dev} (s : Nat) :
    (∀ k, CellLatched d k → CellLatched (d.latchSums s) k) ∧ (∀ j, SumsFresh d j → SumsFresh (d.latchSums s) j) := by
  refine ⟨fun k h => ?_, fun j hj => ?_⟩
  · obtain ⟨f, a, b, p, h', v, he⟩ := latchSums_frame d s
    rw [he]
    exact ⟨h.nTr, h.cause, h.v⟩
  · by_cases hjs : j = s
    · rw [hjs]
      exact latchSums_fresh d s
    · obtain ⟨f, a, b, p, h', v, he⟩ := latchSums_frame d s
      rw [he]
      exact ⟨by rw [vs_updStr_ne hjs]; exact hj.n, by rw [vs_updStr_ne hjs]; exact hj.sumP, by rw [vs_updStr_ne hjs]; exact hj.vBlk⟩

/-- The cells of a list are latched: no sum changes, and what is latched stays so. -/
theorem each_latchCell (s : Nat) (l : List Nat) (d : Dev) :
    Latches d (d.each l (latchCell s)) ∧ (d.each l (latchCell s)).vstr = d.vstr ∧
      (∀ k, CellLatched d k → CellLatched (d.each l (latchCell s)) k) ∧ ∀ k, k ∈ l → CellLatched (d.each l (latchCell s)) k := by
  refine ⟨foldl_frame .refl .trans (fun d k => Latches.latchCell s d k) l d,
    foldl_frame (R := fun a b => b.vstr = a.vstr) (f := latchCell s) (fun _ => rfl) (fun h h' => h'.trans h) (fun _ _ => rfl) l d, fun k h => ?_, fun k hk => ?_⟩
  · exact foldl_frame (R := fun a b => CellLatched a k → CellLatched b k) (fun _ h => h) (fun h h' x => h' (h x))
      (fun d j => latchCell_keeps j) l d h
  · exact foldl_reaches (I := fun _ => True) (P := fun e => CellLatched e k) hk (fun _ _ _ => trivial) (fun d _ => (latchCell_own s d k).1)
      (fun d j => latchCell_keeps j) trivial

theorem Latches.latchStr (d : Dev) (s : Nat) : Latches d (latchStr d s) :=
  (Latches.latchSums d s).trans (each_latchCell s ((d.latchSums s).strCells s) (d.latchSums s)).1

theorem latchStr_keeps {d : Dev} (s : Nat) :
    (∀ k, CellLatched d k → CellLatched (latchStr d s) k) ∧ (∀ j, SumsFresh d j → SumsFresh (latchStr d s) j) := by
  obtain ⟨-, hstr, hcell, -⟩ := each_latchCell s ((d.latchSums s).strCells s) (d.latchSums s)
  refine ⟨fun k h => hcell k ((latchSums_keeps s).1 k h), fun j h => ?_⟩
  obtain ⟨hn, hp, hv⟩ := (latchSums_keeps s).2 j h
  rw [latchStr_eq]
  unfold vs at hn hp hv
  refine ⟨?_, ?_, ?_⟩ <;> unfold vs <;> rw [hstr] <;> assumption

theorem latchStr_latched (d : Dev) (s : Nat) : SumsFresh (latchStr d s) s ∧ ∀ k, k ∈ d.strCells s → CellLatched (latchStr d s) k := by
  obtain ⟨-, hstr, -, hcell⟩ := each_latchCell s ((d.latchSums s).strCells s) (d.latchSums s)
  obtain ⟨hn, hp, hv⟩ := latchSums_fresh d s
  rw [latchStr_eq]
  refine ⟨?_, fun k hk => hcell k (by rw [(Latches.latchSums d s).only.strCells]; exact hk)⟩
  unfold vs at hn hp hv
  refine ⟨?_, ?_, ?_⟩ <;> unfold vs <;> rw [hstr] <;> assumption

/-- Every enabled string is latched. -/
theorem latchAll_parts (d : Dev) :
    Latches d (d.each d.strings latchStr) ∧
      ∀ s, s ∈ d.strings → SumsFresh (d.each d.strings latchStr) s ∧ ∀ k, k ∈ d.strCells s → CellLatched (d.each d.strings latchStr) k := by
  refine ⟨foldl_frame .refl .trans Latches.latchStr _ d, fun s hs => ?_⟩
  exact foldl_reaches (I := fun e => e.strCells s = d.strCells s)
    (P := fun e => SumsFresh e s ∧ ∀ k, k ∈ d.strCells s → CellLatched e k) hs
    (fun e y h => ((Latches.latchStr e y).only.strCells s).trans h)
    (fun e h => ⟨(latchStr_latched e s).1, fun k hk => (latchStr_latched e s).2 k (by rw [h]; exact hk)⟩)
    (fun e y h => ⟨(latchStr_keeps y).2 s h.1, fun k hk => (latchStr_keeps y).1 k (h.2 k hk)⟩) rfl

/-! The publication outside RUN (R149, R392). -/

/-- A cell without share and trim, OUT in an enabled string and ABSENT in none (R149). -/
structure CellIdle (d : Dev) (k : Nat) : Prop where
  g : (d.vc k).g = 0
  ph : (d.vc k).ph = 0
  health : (d.vc k).health = .good
  role : (d.vc k).role = if (d.strOf k).isSome then .out else .absent

theorem idleCell_idle (d : Dev) (k : Nat) : CellIdle (idleCell d k) k :=
  ⟨congrArg VCell.g (vc_updCell_same d k _), congrArg VCell.ph (vc_updCell_same d k _), congrArg VCell.health (vc_updCell_same d k _),
    congrArg VCell.role (vc_updCell_same d k _)⟩

theorem idleCell_keeps {d : Dev} {j : Nat} (k : Nat) (h : CellIdle d j) : CellIdle (idleCell d k) j := by
  by_cases hjk : j = k
  · rw [hjk]
    exact idleCell_idle d k
  · have hvc : (idleCell d k).vc j = d.vc j := vc_updCell_ne hjk
    exact ⟨by rw [hvc]; exact h.g, by rw [hvc]; exact h.ph, by rw [hvc]; exact h.health, by rw [hvc]; exact h.role⟩

/-- What Vertex leaves where it does not compute: it runs for the same block. -/
structure Idles (d d' : Dev) : Prop where
  only : VertexOnly d d'
  vBlk : d'.vBlk = d.vBlk
  vRun : d'.vRun = d.vRun

theorem Idles.refl (d : Dev) : Idles d d := ⟨.refl d, rfl, rfl⟩

theorem Idles.trans {a b c : Dev} (h : Idles a b) (h' : Idles b c) : Idles a c :=
  ⟨h.only.trans h'.only, h'.vBlk.trans h.vBlk, h'.vRun.trans h.vRun⟩

theorem Idles.idleCell (d : Dev) (k : Nat) : Idles d (idleCell d k) := ⟨⟨rfl, rfl, rfl, rfl⟩, rfl, rfl⟩

theorem Idles.updStr (d : Dev) (s : Nat) (f : VStr → VStr) : Idles d (d.updStr s f) := ⟨⟨rfl, rfl, rfl, rfl⟩, rfl, rfl⟩

theorem Idles.ptAbort (d : Dev) (now : Nat) : Idles d (d.ptAbort now) := by
  obtain ⟨b, h⟩ := endCmd_frame d now d.diag.pt.slot stAborted 0
  unfold Dev.ptAbort
  rw [h]
  split
  · exact ⟨⟨rfl, rfl, rfl, rfl⟩, rfl, rfl⟩
  · exact refl d

theorem vertexIdle_parts (d : Dev) : Idles d d.vertexIdle ∧ ∀ k, k < 48 → CellIdle d.vertexIdle k := by
  unfold vertexIdle
  dsimp only
  refine ⟨(foldl_frame .refl .trans (fun d s => Idles.updStr d s _) _ d).trans (foldl_frame .refl .trans Idles.idleCell _ _), fun k hk => ?_⟩
  exact foldl_reaches (I := fun _ => True) (P := fun e => CellIdle e k) (List.mem_range.mpr hk) (fun _ _ _ => trivial) (fun d _ => idleCell_idle d k)
    (fun d j => idleCell_keeps j) trivial

/-- A publication of a block that Vertex does not compute (R149, R392). -/
theorem doVertexPublish_idle {d : Dev} {now n : Nat} (hn : 2 ≤ n) (hdom : d.domOn 3 = true) (hrun : d.stage ≠ .run ∨ d.vLat = false) :
    VertexOnly d (d.doVertexPublish now n) ∧ (d.doVertexPublish now n).vBlk = n ∧ (d.doVertexPublish now n).vRun = false ∧
      ∀ k, k < 48 → CellIdle (d.doVertexPublish now n) k := by
  have hoff : (d.stage == .run && d.vLat) = false := by
    rcases hrun with h | h <;> simp [h]
  have hdo : d.doVertexPublish now n = (if d.diag.pt.running then ({ d with vBlk := n, vRun := false } : Dev).ptAbort now
      else { d with vBlk := n, vRun := false }).vertexIdle := by
    unfold doVertexPublish
    rw [if_neg (by simp [hdom, not_lt.mpr hn])]
    dsimp only
    rw [hoff]
    rfl
  have habort : Idles ({ d with vBlk := n, vRun := false } : Dev) (if d.diag.pt.running then
      ({ d with vBlk := n, vRun := false } : Dev).ptAbort now else { d with vBlk := n, vRun := false }) := by
    split
    · exact .ptAbort ..
    · exact .refl _
  rw [hdo]
  generalize (if d.diag.pt.running then ({ d with vBlk := n, vRun := false } : Dev).ptAbort now
    else { d with vBlk := n, vRun := false }) = e at habort ⊢
  obtain ⟨hidle, hcell⟩ := vertexIdle_parts e
  obtain ⟨honly, hblk, hvrun⟩ := habort.trans hidle
  exact ⟨⟨honly.regs, honly.link, honly.hull, honly.lat⟩, hblk, hvrun, hcell⟩

/-- A publication of a block that Vertex computes works on the enabled strings in order (R147 to R165). -/
theorem doVertexPublish_run {d : Dev} {now n : Nat} (hn : 2 ≤ n) (hdom : d.domOn 3 = true) (hrun : d.stage = .run) (hlat : d.vLat = true) :
    d.doVertexPublish now n =
      (let a := ({ d with vBlk := n, vRun := true } : Dev).each d.strings (fun d x => (publishStr now (blockAt n) d x).rephase x)
       let b := if a.diag.pt.running && (a.vc a.diag.pt.cell).role != .sharing then a.ptAbort now else a
       b.each ((List.range 48).filter (fun k => (b.strOf k).isNone)) idleCell) := by
  have hon : (d.stage == .run && d.vLat) = true := by simp [hrun, hlat]
  unfold doVertexPublish
  rw [if_neg (by simp [hdom, not_lt.mpr hn])]
  dsimp only
  rw [hon]
  rfl

end Dev

/-- Settles O59. -/
theorem vertexPublishesAndUnitsStart : Obligations.VertexPublishesAndUnitsStart := by
  unfold Obligations.VertexPublishesAndUnitsStart
  refine ⟨fun n s hn hdom => ⟨?_, fun hrun => ?_, fun hrun hlat => ?_⟩, fun u s => ⟨fun hmode hpk => ?_, fun hmode hpk => ?_, fun hmode hon => ?_⟩⟩
  · obtain ⟨hlatch, hstr⟩ := Dev.latchAll_parts s.dev
    obtain ⟨hregs, hlink, hhull, hlat⟩ := hlatch.only
    have hdo : exec (.vertexLatch n) s = .next (s.withDev { (s.dev.each s.dev.strings Dev.latchStr) with vLat := s.dev.stage == .run }) :=
      next_withDev ((if_pos hn).trans (if_pos hdom))
    refine ⟨_, hdo, rfl, rfl, rfl, hregs, hlink, hhull, hlat, rfl, fun str hs => ?_⟩
    obtain ⟨⟨hsn, hsp, hsv⟩, hcell⟩ := hstr str hs
    exact ⟨hsn, hsp, hsv, fun k hk => ⟨(hcell k hk).nTr, (hcell k hk).cause,
      (hcell k hk).v.trans (by unfold Dev.lk; rw [hlink]), hlatch.share k⟩⟩
  · obtain ⟨⟨hregs, hlink, hhull, hlat⟩, hblk, hvrun, hcell⟩ := Dev.doVertexPublish_idle (now := s.now) hn hdom hrun
    have honly : Dev.VertexOnly s.dev (s.dev.doVertexPublish s.now n) := ⟨hregs, hlink, hhull, hlat⟩
    refine ⟨s.withDev (s.dev.doVertexPublish s.now n), rfl, rfl, rfl, rfl, hregs, hlink, hhull, hlat, hblk, hvrun, fun k hk => ?_⟩
    obtain ⟨hg, hph, hhealth, hrole⟩ := hcell k hk
    exact ⟨hg, hph, hhealth, hrole.trans (by rw [honly.strOf])⟩
  · exact next_withDev (Dev.doVertexPublish_run hn hdom hrun hlat)
  · exact next_withDev (if_pos (by simp [hmode, Option.isSome_iff_ne_none.mpr hpk]))
  · exact next_withDev (if_pos (by simp [hmode, Option.isSome_iff_ne_none.mpr hpk]))
  · have hdo : exec (.retreatReload u) s = .next (s.withDev ((s.dev.startUnit s.now u).updChord u (fun c => { c with legA := {}, legB := {} }))) :=
      next_withDev (if_pos (by simp [hmode, hon]))
    have hch : ((s.dev.startUnit s.now u).updChord u (fun c => { c with legA := {}, legB := {} })).ch u = _ := Dev.ch_updChord_same ..
    rw [show (s.dev.startUnit s.now u).ch u = _ from Dev.ch_updChord_same ..] at hch
    have hmode' := congrArg Chord.mode hch
    have hpk := congrArg Chord.startPk hch
    have hn := congrArg Chord.nTr hch
    exact ⟨_, hdo, rfl, rfl, rfl, rfl, rfl, rfl, hmode', congrArg Chord.legA hch, congrArg Chord.legB hch,
      hpk, hn, fun x hx => (Dev.ch_updChord_ne hx).trans (Dev.ch_updChord_ne hx)⟩

end Sys2Proof.Machine
end

section
/-! The stream receivers (R325, R447): what arrives at SP7 while IRIG-B holds its pins is no frame. -/

namespace Sys2Proof.Machine
namespace Dev

/-- A frame at pins that the receiver does not hear is none (R325, R447). -/
theorem doRxFrame_unheard {d : Dev} {now n edge a b : Nat} (h : d.rxHears n = false) : d.doRxFrame now n edge a b = d :=
  if_pos (by simp [h])

end Dev

/-- Port 7 was disabled and fades out in SEARCH, its weight not yet 0, as the time source became IRIG-B (SRC = 2), which takes
the pins of SP7 (R41, R335, R447). -/
def sp7FadesUnderIrig : State :=
  State.reset.withDev (((State.reset.dev.wr 3 0x20 2).modPwr (fun p => { p with on := 0x1FF })).updPort 7
    (fun p => { p with st := .search, closing := true, s1 := { w := 5 } }))

theorem sp7FadesUnderIrig_on : sp7FadesUnderIrig.dev.rxOn 7 = true := by decide

theorem sp7FadesUnderIrig_deaf : sp7FadesUnderIrig.dev.rxHears 7 = false := by decide

/-- Refutes O56: its receiver clauses ask only that the receiver runs, and leave out that what arrives at SP7 is ignored while
IRIG-B holds those pins (R325, R447). Port 7 still fades out in SEARCH with SRC = 2; a frame at the edge of tick 16 leaves it
without a last frame. -/
theorem not_streamEventsAct : ¬ Obligations.StreamEventsAct := by
  unfold Obligations.StreamEventsAct
  intro h
  obtain ⟨hrx, -⟩ := h 7 16 0 0 1 0 ⟨0, false, false⟩ ⟨0, false, false⟩ false false false false sp7FadesUnderIrig (by decide) rfl
  obtain ⟨hsearch, -⟩ := hrx sp7FadesUnderIrig_on
  obtain ⟨t, hnext, -, -, -, -, hlast, -⟩ := hsearch (by decide)
  have hsame : exec (.rxFrame 7 16 ⟨0, false, false⟩ ⟨0, false, false⟩ false false false false) sp7FadesUnderIrig = .next sp7FadesUnderIrig :=
    next_withDev (d' := sp7FadesUnderIrig.dev) (Dev.doRxFrame_unheard sp7FadesUnderIrig_deaf)
  rw [hsame] at hnext
  cases hnext
  exact absurd hlast (by decide)

end Sys2Proof.Machine
end
